-- ==== Sys2Proof/Word.lean ====
section
/-! DEFINITION. The widths of the block (00_scope.md R7, R8): 8-bit values, 4-bit nibbles, 1-bit levels. -/

namespace Sys2Proof

/-- `BYTE_W = 8`: ControlByte, Frame, Command, DataByte, and the registers ACC, STAGE, OUT (R7). -/
abbrev Byte := BitVec 8

/-- `NIBBLE_W = 4`: the payload of one nibble transfer (R7). -/
abbrev Nibble := BitVec 4

/-- One bit: a line level, or RS, RW, EN (R8). `true` is 1. -/
abbrev Level := Bool

end Sys2Proof
end

