-- ==== Sys2Proof/Config.lean ====
section
/-! DEFINITION. The block's configuration (R7, R31): parameters fixed "at design time", which no operation writes; and the
free values of the informative device model. -/

namespace Sys2Proof

/-- `WIRING` (41_pin_remapper.md R141): for each ControlByte bit, named by the device input it drives (20_memory.md R61),
the shift-register output line that the board wires to it. OPEN in the spec (92_eei_decisions.md D3). -/
structure Wiring where
  /-- `WIRING[0]`, ControlByte bit 0. -/
  d4 : Fin 8
  /-- `WIRING[1]`, ControlByte bit 1. -/
  d5 : Fin 8
  /-- `WIRING[2]`, ControlByte bit 2. -/
  d6 : Fin 8
  /-- `WIRING[3]`, ControlByte bit 3. -/
  d7 : Fin 8
  /-- `WIRING[4]`, ControlByte bit 4. -/
  rs : Fin 8
  /-- `WIRING[5]`, ControlByte bit 5. -/
  rw : Fin 8
  /-- `WIRING[6]`, ControlByte bit 6. -/
  en : Fin 8
  /-- `WIRING[7]`, ControlByte bit 7: the spare output, no device input. -/
  spare : Fin 8
deriving DecidableEq, Repr

/-- `WIRING[i]`, the table read by index (R141). -/
def Wiring.line (w : Wiring) : Fin 8 → Fin 8
  | 0 => w.d4
  | 1 => w.d5
  | 2 => w.d6
  | 3 => w.d7
  | 4 => w.rs
  | 5 => w.rw
  | 6 => w.en
  | 7 => w.spare

/-- The table whose entry i is `f i`. -/
def Wiring.ofFn (f : Fin 8 → Fin 8) : Wiring :=
  { d4 := f 0, d5 := f 1, d6 := f 2, d7 := f 3, rs := f 4, rw := f 5, en := f 6, spare := f 7 }

/-- The identity table, which the spec uses "for the test vectors only" (D3). -/
def Wiring.identity : Wiring := Wiring.ofFn id

/-- The parameters of R7 and R31. A duration is a natural number of microseconds (R11). -/
structure Config where
  /-- `WIRING` (R141). OPEN. -/
  wiring : Wiring
  /-- `T_POWER_ON` (R181). OPEN. -/
  tPowerOn : Nat
  /-- `T_RESET1` (R182). OPEN. -/
  tReset1 : Nat
  /-- `T_RESET2` (R182). OPEN. -/
  tReset2 : Nat
  /-- `T_RESET3` (R182). OPEN. -/
  tReset3 : Nat
  /-- `T_4BIT` (R183). OPEN. -/
  tFourBit : Nat
  /-- `T_NIBBLE` (R150). OPEN. -/
  tNibble : Nat
  /-- `T_EXEC_SHORT` (R155). OPEN. -/
  tExecShort : Nat
  /-- `T_EXEC_LONG` (R155). OPEN. -/
  tExecLong : Nat
  /-- `T_EXEC_DATA` (R155). OPEN. -/
  tExecData : Nat
  /-- `INIT_FUNCTION_SET` (R184). OPEN, default 0x28. -/
  initFunctionSet : Byte
deriving DecidableEq, Repr

/-- `INIT_DISPLAY_CONTROL`, decided 0x0C (R7, R185, D13). -/
def Config.initDisplayControl : Byte := 0x0C#8

/-- `INIT_ENTRY_MODE`, decided 0x06 (R7, R186, D13). -/
def Config.initEntryMode : Byte := 0x06#8

/-- `INIT_CLEAR`, 0x01 (R7, R187). -/
def Config.initClear : Byte := 0x01#8

/-- DESIGN CHOICE (log entry 2). The parameters that the spec's test vectors take (95_test_vectors.md, conventions): identity
wiring, the informative durations of R201 and 0x28. No statement for the provers rests on them. -/
def Config.informative : Config :=
  { wiring := Wiring.identity, tPowerOn := 40000, tReset1 := 4100, tReset2 := 100, tReset3 := 100, tFourBit := 100,
    tNibble := 1, tExecShort := 37, tExecLong := 1520, tExecData := 41, initFunctionSet := 0x28#8 }

/-- `DEVMODE` (20_memory.md R67): how the display groups the strobes it receives. -/
inductive DeviceMode where
  /-- 8-bit interface: every strobe is one whole byte. -/
  | eight
  /-- 4-bit interface, a high nibble comes next. -/
  | fourHi
  /-- 4-bit interface, high nibble `h` received, its low nibble comes next. -/
  | fourLo (h : Nibble)
deriving DecidableEq, Repr, Inhabited

/-- Free value (log entry 7): "low := draw 4 bits", the levels on the device's unconnected inputs D3..D0 in 8-bit mode
(R67, 93_implementation_defined.md U20), at the n-th draw. -/
opaque Config.deviceLowNibble : Nat → Nibble

/-- Free value (log entry 8): the reception mode after a strobe with RW = 1. R67 gives reception for `Strobe(rs, 0, n)` only. -/
opaque Config.deviceModeAfterRead : Nat → DeviceMode

end Sys2Proof
end

