-- ==== Sys2Proof/Syntax.lean ====
section
/-! DEFINITION. The operations of the block as syntax: one constructor for each row of spec/opcode_table.json (30_encoding.md
R95, R96, R102). Operands have exactly the widths that the table gives them. -/

namespace Sys2Proof

/-- The delay kinds of 44_delay.md R201. -/
inductive DelayKind where
  | powerOn
  | reset1
  | reset2
  | reset3
  | fourBit
  | nibble
  | exec
deriving DecidableEq, Repr

/-- One operation. The first four are the upstream calls (R95), the next seven the internal operations (R96), the last two
the ControlByte patterns the block emits (R98). -/
inductive Instr where
  /-- `initialize()` (R180). -/
  | initialise
  /-- `write_command(v)` (R152). -/
  | writeCommand (v : Byte)
  /-- `write_data(v)` (R153). -/
  | writeData (v : Byte)
  /-- `write_string(s)` (R154): a finite, possibly empty sequence of character codes. -/
  | writeString (codes : List Byte)
  /-- `transmit(b)` (R120). -/
  | transmit (b : Byte)
  /-- `latch()` (R123). -/
  | latch
  /-- `send(b)` (R124). -/
  | send (b : Byte)
  /-- `remap(cb)` (R140). -/
  | remap (cb : Byte)
  /-- `nibble(n, rs)` (R150). -/
  | nibble (n : Nibble) (rs : Level)
  /-- `write_byte(v, rs)` (R151). -/
  | writeByte (v : Byte) (rs : Level)
  /-- `delay(kind, t)` (R200). -/
  | delay (kind : DelayKind) (t : Nat)
  /-- `CB_EN1`, the pattern 010rnnnn: the first send of a nibble transfer (R150 steps 1 and 2). -/
  | cbEn1 (rs : Level) (n : Nibble)
  /-- `CB_EN0`, the pattern 000rnnnn: the second send of a nibble transfer (R150 step 3). -/
  | cbEn0 (rs : Level) (n : Nibble)
deriving DecidableEq, Repr

/-- The only calls an upstream caller may make (R95, R221). -/
def Instr.isUpstream : Instr → Bool
  | .initialise => true
  | .writeCommand _ => true
  | .writeData _ => true
  | .writeString _ => true
  | .transmit _ => false
  | .latch => false
  | .send _ => false
  | .remap _ => false
  | .nibble _ _ => false
  | .writeByte _ _ => false
  | .delay _ _ => false
  | .cbEn1 _ _ => false
  | .cbEn0 _ _ => false

end Sys2Proof
end

