-- ==== Sys2Proof/WellFormed.lean ====
section
/-! DEFINITION. What is checked before anything runs: the wiring table (R142), the function-set parameter (R184), both as the
configuration refusals of R217, and a ControlByte that is not built by `CB` (R98). Operations need no check of their own:
their operand types have the exact widths, and every operand value is legal (R99, D27). -/

namespace Sys2Proof

/-- R142: `WIRING[i] ≠ WIRING[j]` for all i ≠ j. -/
abbrev Wiring.IsPermutation (w : Wiring) : Prop := ∀ i j : Fin 8, i ≠ j → w.line i ≠ w.line j

/-- The output lines that the table uses, one bit each. -/
def Wiring.linesUsed (w : Wiring) : Byte :=
  (1#8 <<< w.d4.val) ||| (1#8 <<< w.d5.val) ||| (1#8 <<< w.d6.val) ||| (1#8 <<< w.d7.val) |||
  (1#8 <<< w.rs.val) ||| (1#8 <<< w.rw.val) ||| (1#8 <<< w.en.val) ||| (1#8 <<< w.spare.val)

/-- The check of R142 as a machine makes it: eight entries are a permutation exactly when they use all eight lines. -/
def Wiring.isPermutation (w : Wiring) : Bool := w.linesUsed == 0xFF#8

/-- R184: a legal `INIT_FUNCTION_SET` has `v[7:4] = 0x2`, a function set with DL = 0. -/
abbrev IsFourBitFunctionSet (v : Byte) : Prop := v.extractLsb' 4 4 = 0x2#4

/-- The reasons to refuse a configuration (R217). The third reason of R217, a duration that is not a natural number, cannot
be written down in `Config`. -/
inductive ConfigDefect where
  /-- `WIRING` is not a permutation (R142). -/
  | wiringNotPermutation
  /-- The high nibble of `INIT_FUNCTION_SET` is not 0x2 (R184). -/
  | functionSetNotFourBit
deriving DecidableEq, Repr

/-- The check a model makes when the configuration is built (R142, R184, R217). -/
def Config.defect (c : Config) : Option ConfigDefect :=
  if c.wiring.isPermutation then
    if IsFourBitFunctionSet c.initFunctionSet then none else some .functionSetNotFourBit
  else some .wiringNotPermutation

/-- A configuration for which runs exist (R217). -/
abbrev Config.Legal (c : Config) : Prop := c.wiring.IsPermutation ∧ IsFourBitFunctionSet c.initFunctionSet

/-- R98: a ControlByte the block may emit has RW = 0 (bit 5) and SPARE = 0 (bit 7), the pattern `0?0?????`. -/
abbrev IsLegalControlByte (cb : Byte) : Prop := cb &&& 0xA0#8 = 0x00#8

/-- Well-formedness of an operation as syntax. Total: the block does not "check, reserve or interpret" any operand (R99),
and the operand types carry the widths of the opcode table. -/
def Instr.wellFormed : Instr → Bool
  | .initialise => true
  | .writeCommand _ => true
  | .writeData _ => true
  | .writeString _ => true
  | .transmit _ => true
  | .latch => true
  | .send _ => true
  | .remap _ => true
  | .nibble _ _ => true
  | .writeByte _ _ => true
  | .delay _ _ => true
  | .cbEn1 _ _ => true
  | .cbEn0 _ _ => true

end Sys2Proof
end

