-- ==== Sys2Proof/Decode.lean ====
section
/-! DEFINITION. Decoding and encoding of one call record. A record is the list of bytes by which the host presents one
operation. A ControlByte pattern is its own byte, as the table writes it (30_encoding.md R90, R98, R102). The calls and the
internal operations have no binary opcode ("An operation is selected by its name", R95): the model names them by selector
bytes 0x80 to 0x8A, which no emitted ControlByte uses because SPARE = 1 there (DESIGN CHOICE, log entry 3). -/

namespace Sys2Proof

/-- Why a record names no operation. -/
inductive DecodeError where
  /-- The record holds no byte. -/
  | emptyRecord
  /-- A ControlByte with RW = 1, which the block never emits and a model refuses (R98, D20). -/
  | illegalControlByte (cb : Byte)
  /-- A byte with SPARE = 1 that is no selector: no ControlByte (R98) and no name (R95). -/
  | unknownOperation (selector : Byte)
  /-- The operand bytes are not those of the named operation. -/
  | badOperands (selector : Byte)
deriving DecidableEq, Repr

/-- The model's number of a delay kind, in the order of R201. -/
def DelayKind.code : DelayKind → Byte
  | .powerOn => 0x00#8
  | .reset1 => 0x01#8
  | .reset2 => 0x02#8
  | .reset3 => 0x03#8
  | .fourBit => 0x04#8
  | .nibble => 0x05#8
  | .exec => 0x06#8

/-- The delay kind of a number. -/
def delayKindOf (b : Byte) : Option DelayKind :=
  if b = 0x00#8 then some .powerOn
  else if b = 0x01#8 then some .reset1
  else if b = 0x02#8 then some .reset2
  else if b = 0x03#8 then some .reset3
  else if b = 0x04#8 then some .fourBit
  else if b = 0x05#8 then some .nibble
  else if b = 0x06#8 then some .exec
  else none

/-- A natural number from its bytes, the lowest first. -/
def natOfBytes : List Byte → Nat
  | [] => 0
  | b :: bs => b.toNat + 256 * natOfBytes bs

/-- The bytes of a natural number, the lowest first and none above the highest that is not 0. -/
def bytesOfNatFuel : Nat → Nat → List Byte
  | 0, _ => []
  | fuel + 1, n => if n = 0 then [] else BitVec.ofNat 8 n :: bytesOfNatFuel fuel (n / 256)

/-- The bytes of a natural number. Its own value is fuel enough. -/
def bytesOfNat (n : Nat) : List Byte := bytesOfNatFuel n n

/-- The fields r and n of the table's `...rnnnn` patterns. -/
def rsField (b : Byte) : Level := b.getLsbD 4

/-- The nibble field of a ControlByte, bits [3:0] (R90). -/
def nibbleField (b : Byte) : Nibble := b.extractLsb' 0 4

/-- The operand bytes of `delay`: the kind, then t. The bytes of t must have no 0 at their high end. -/
def decodeDelay (selector kind : Byte) (time : List Byte) : Except DecodeError Instr :=
  match delayKindOf kind with
  | none => .error (.badOperands selector)
  | some k =>
    if bytesOfNat (natOfBytes time) = time then .ok (.delay k (natOfBytes time)) else .error (.badOperands selector)

/-- A record that begins with a byte whose SPARE bit is 1: a selector and its operand bytes. -/
def decodeCall (selector : Byte) (operands : List Byte) : Except DecodeError Instr :=
  match selector.toNat, operands with
  | 0x80, [] => .ok .initialise
  | 0x81, [v] => .ok (.writeCommand v)
  | 0x82, [v] => .ok (.writeData v)
  | 0x83, codes => .ok (.writeString codes)
  | 0x84, [b] => .ok (.transmit b)
  | 0x85, [] => .ok .latch
  | 0x86, [b] => .ok (.send b)
  | 0x87, [cb] => .ok (.remap cb)
  | 0x88, [x] => if x &&& 0xE0#8 = 0#8 then .ok (.nibble (nibbleField x) (rsField x)) else .error (.badOperands selector)
  | 0x89, [v, r] => if r &&& 0xFE#8 = 0#8 then .ok (.writeByte v (r.getLsbD 0)) else .error (.badOperands selector)
  | 0x8A, kind :: time => decodeDelay selector kind time
  | n, _ => if n ≤ 0x8A then .error (.badOperands selector) else .error (.unknownOperation selector)

/-- The operation that a record names. The ControlByte patterns are the table's `(x & 0xE0) = 0x40` and `(x & 0xE0) = 0x00`
(R98, R102). -/
def decode : List Byte → Except DecodeError Instr
  | [] => .error .emptyRecord
  | b :: operands =>
    if b.getLsbD 7 then decodeCall b operands
    else if b &&& 0xE0#8 = 0x40#8 then
      if operands = [] then .ok (.cbEn1 (rsField b) (nibbleField b)) else .error (.badOperands b)
    else if b &&& 0xE0#8 = 0x00#8 then
      if operands = [] then .ok (.cbEn0 (rsField b) (nibbleField b)) else .error (.badOperands b)
    else .error (.illegalControlByte b)

/-- The five operand bits `{rs, n}` in a byte (R102): the pattern 000rnnnn. -/
def rsNibbleByte (rs : Level) (n : Nibble) : Byte := 0#3 ++ BitVec.ofBool rs ++ n

/-- The record of an operation. -/
def encode : Instr → List Byte
  | .initialise => [0x80#8]
  | .writeCommand v => [0x81#8, v]
  | .writeData v => [0x82#8, v]
  | .writeString codes => 0x83#8 :: codes
  | .transmit b => [0x84#8, b]
  | .latch => [0x85#8]
  | .send b => [0x86#8, b]
  | .remap cb => [0x87#8, cb]
  | .nibble n rs => [0x88#8, rsNibbleByte rs n]
  | .writeByte v rs => [0x89#8, v, 0#7 ++ BitVec.ofBool rs]
  | .delay kind t => 0x8A#8 :: kind.code :: bytesOfNat t
  | .cbEn1 rs n => [0x40#8 ||| rsNibbleByte rs n]
  | .cbEn0 rs n => [rsNibbleByte rs n]

/-- How many operand bytes the shortest record with this first byte has. -/
def fewestOperands (b : Byte) : Nat :=
  match b.toNat with
  | 0x81 => 1
  | 0x82 => 1
  | 0x84 => 1
  | 0x86 => 1
  | 0x87 => 1
  | 0x88 => 1
  | 0x89 => 2
  | 0x8A => 1
  | _ => 0

/-- The record whose bits the host numbers in `w`: byte k is bits 8k+7..8k, and operand bytes above `nbits` are 0. -/
def recordOfWord (nbits w : Nat) : List Byte :=
  let bytes := (List.range ((nbits + 7) / 8)).map fun k => BitVec.ofNat 8 (w / 256 ^ k)
  match bytes with
  | [] => []
  | b :: operands => b :: operands ++ List.replicate (fewestOperands b - operands.length) 0#8

/-- The instruction the decoder reads from a word numbered as spec/opcode_table.json numbers it. -/
def decodeTableWord (nbits w : Nat) : Option Instr := (decode (recordOfWord nbits w)).toOption

end Sys2Proof
end

