-- ==== Sys2Proof/Machine/State.lean ====
section
/-! DEFINITION. The block's state (10_state.md R20), as plain data, with the device's reception state (R37, R67) and the
model's own fields; the reasons a step can stop; and the block reset (70_reset_and_hazards.md R240). -/

namespace Sys2Proof.Machine

/-- `DSTATE` (R23): "No further states". -/
inductive DState where
  | uninitialized
  | initializing
  | ready
deriving DecidableEq, Repr

/-- The three link lines (R26). -/
inductive Line where
  | data
  | clk
  | latch
deriving DecidableEq, Repr

/-- The levels of the link lines, `LINE.DATA`, `LINE.CLK`, `LINE.LATCH` (R26). -/
structure Lines where
  data : Level
  clk : Level
  latch : Level
deriving DecidableEq, Repr

/-- The level of one line. -/
def Lines.get (x : Lines) : Line → Level
  | .data => x.data
  | .clk => x.clk
  | .latch => x.latch

/-- The levels after one line is written. -/
def Lines.set (x : Lines) (l : Line) (b : Level) : Lines :=
  match l with
  | .data => { x with data := b }
  | .clk => { x with clk := b }
  | .latch => { x with latch := b }

/-- The block's own fault reasons, a closed set (60_exceptions.md R210). Raising one is a next state (R214), not a stop. -/
inductive FaultReason where
  /-- A write outside `Ready` (R211). -/
  | notReady
  /-- `initialize()` outside `Uninitialized` (R212). -/
  | reinit
  /-- A latch without a complete transmit (R122, R213). -/
  | partialLatch
  /-- A transmit over an unlatched one (R121, R213). -/
  | unlatchedTransmit
deriving DecidableEq, Repr

/-- The events of the trace (R38). -/
inductive Event where
  /-- `LineWrite(L, b)` (R9). -/
  | lineWrite (l : Line) (b : Level)
  /-- `Delay(kind, t)` (R200), t in microseconds. -/
  | delay (kind : DelayKind) (t : Nat)
  /-- `Strobe(rs, rw, n)` (R62): what the device samples when EN falls. -/
  | strobe (rs rw : Level) (n : Nibble)
  /-- `Fault(reason)` (R214). -/
  | fault (reason : FaultReason)
deriving DecidableEq, Repr

/-- `SEQ` (R34). -/
inductive Seq where
  /-- Between operations. -/
  | idle
  /-- `op` runs; `i` is the zero-based index of the next primitive event in its expansion. -/
  | busy (op : Instr) (i : Nat)
deriving DecidableEq, Repr

/-- One `DevExec(rs, byte)` of R67: an instruction (rs = 0) or a data write (rs = 1) that the display executes. -/
structure DevExec where
  rs : Level
  byte : Byte
deriving DecidableEq, Repr

/-- The informative reception state of the display (R67). Nothing in the block reads it. -/
structure Device where
  /-- `DEVMODE`. -/
  mode : DeviceMode
  /-- The `DevExec` of the run, oldest first. Their semantics are out of scope (R6, R67). -/
  executed : List DevExec
  /-- The model's own counter: how many free values have been drawn (log entries 7 and 8). -/
  draws : Nat
deriving DecidableEq, Repr

/-- Who makes a call. -/
inductive Caller where
  /-- The host, the upstream caller of R221: it may make the four upstream calls only. -/
  | host
  /-- A caller inside the block (R96), exposed as R213 lets a model expose `transmit` and `latch` (log entry 4). -/
  | inside
deriving DecidableEq, Repr

/-- One call that has not run yet. -/
structure Call where
  caller : Caller
  /-- The operation and its operands, a record of Decode.lean (log entry 3). -/
  record : List Byte
deriving DecidableEq, Repr

/-- The state of R20, the device's (R37, R240), and the model's own fields `cfg`, `calls` and `result`. -/
structure State where
  /-- The configuration (R31): not state in the spec but a parameter of the step relation, which no operation writes (log entry 1). -/
  cfg : Config
  /-- `DSTATE` (R23). -/
  dstate : DState
  /-- `ACC`, the ControlByte accumulator (R22). -/
  acc : Byte
  /-- `LINE.DATA`, `LINE.CLK`, `LINE.LATCH` (R26). -/
  line : Lines
  /-- `STAGE`, the shift register's internal stages (R24). -/
  stage : Byte
  /-- `OUT`, the shift register's parallel outputs (R25). -/
  out : Byte
  /-- `LINKCNT`, 0..8 (R27). -/
  linkcnt : Fin 9
  /-- `FAULT`, none or one sticky reason (R33). -/
  fault : Option FaultReason
  /-- `SEQ` (R34). -/
  seq : Seq
  /-- `TRACE`, oldest event first (R38). -/
  trace : List Event
  /-- The display's reception state (R67). -/
  device : Device
  /-- The calls that have not run yet, oldest first (log entries 3 and 4). -/
  calls : List Call
  /-- The frame that the last `remap` returned (R140), none before the first. No other operation returns a value (R60, R125;
  log entry 10). -/
  result : Option Byte
deriving DecidableEq, Repr

/-- Stops of the machine: the model has no step (the treatment `stuck` of 93_implementation_defined.md). Neither is a
behaviour of the chip. -/
inductive Fault where
  /-- Raised by every operation and by `step` when `FAULT` is already set: "while it is set no operation has a step" (R33,
  R214, U11). Safe: the real driver has no fault mark and would go on, so the model stops where the hardware goes on. -/
  | stuckAfterFault (reason : FaultReason)
  /-- Raised by every operation that is called while another one runs: calls never overlap (R12, R159, U10). Safe: the model
  has no move for such a host. -/
  | overlappingCall
deriving DecidableEq, Repr

/-- Refusals: the treatment `refuse` of 93_implementation_defined.md, and operations without a meaning yet. -/
inductive Refusal where
  /-- Raised by a dispatch arm whose operation has no meaning yet. Safe: nothing is claimed. No arm of this model raises it. -/
  | notModelled (mnemonic : String)
  /-- Raised by `step` for a configuration that R217 refuses: no run exists for it (R142, R184). Safe: nothing is claimed. -/
  | illegalConfiguration (defect : ConfigDefect)
  /-- Raised by `step` when the oldest call record names no operation (R95, R98, R221). Safe: nothing is claimed. -/
  | undecodable (error : DecodeError)
  /-- Raised by `step` when the host's oldest call is no upstream call: "A liberty the table does not give is refused" (R221).
  Safe: nothing is claimed of such a host. -/
  | notUpstream (op : Instr)
deriving DecidableEq, Repr

/-- Block reset (R240) for one configuration and one draw of the values that R240 leaves unspecified: `STAGE`, `OUT` and the
device's mode. -/
def State.blockReset (cfg : Config) (stage out : Byte) (mode : DeviceMode) : State :=
  { cfg := cfg, dstate := .uninitialized, acc := 0x00#8, line := { data := false, clk := false, latch := false },
    stage := stage, out := out, linkcnt := 0, fault := none, seq := .idle, trace := [],
    device := { mode := mode, executed := [], draws := 0 }, calls := [], result := none }

/-- The machine right after reset. DESIGN CHOICE (log entries 2, 5, 6): the informative configuration, `STAGE = OUT = 0x00`,
the device in `Eight`. Statements about reset quantify over `State.blockReset` instead. -/
def State.reset : State := State.blockReset Config.informative 0x00#8 0x00#8 .eight

end Sys2Proof.Machine
end

