-- ==== Sys2Proof/Machine/Operands.lean ====
section
/-! DEFINITION. The values that operations compute from their operands: the bits of a byte, the ControlByte (R90, R91), the
nibble split (R94), the permutation of PinRemapper (41_pin_remapper.md), and the execution delay (R155). -/

namespace Sys2Proof.Machine

/-- The bits of a byte, bit 0 first: the order on the wire (R64, R93). -/
def bitsOf (b : Byte) : List Level :=
  [b.getLsbD 0, b.getLsbD 1, b.getLsbD 2, b.getLsbD 3, b.getLsbD 4, b.getLsbD 5, b.getLsbD 6, b.getLsbD 7]

/-- `CB(n, rs, en) = {1'b0, en, 1'b0, rs, n}` (R91). RW and SPARE are 0, so no other ControlByte can be built (R98). -/
def controlByte (n : Nibble) (rs en : Level) : Byte :=
  0#1 ++ BitVec.ofBool en ++ 0#1 ++ BitVec.ofBool rs ++ n

/-- `cb & ~(1 << 6)`: "the same ControlByte with EN=0" (R150 step 3). -/
def clearEn (cb : Byte) : Byte := cb &&& ~~~(1#8 <<< 6)

/-- `v[7:4]` (R94). -/
def highNibble (v : Byte) : Nibble := v.extractLsb' 4 4

/-- `v[3:0]` (R94). -/
def lowNibble (v : Byte) : Nibble := v.extractLsb' 0 4

/-- The indices 0..7 in order. -/
def bitIndices : List (Fin 8) := [0, 1, 2, 3, 4, 5, 6, 7]

/-- `v[k]`, for an index of a table. -/
def bitAt (v : Byte) (k : Fin 8) : Level := v.getLsbD k

/-- `v` after `v[k] := b`. -/
def setBit (v : Byte) (k : Fin 8) (b : Level) : Byte :=
  if b then v ||| (1#8 <<< k.val) else v &&& ~~~(1#8 <<< k.val)

/-- `remap(cb)` (R140): "bit i of the input maps to bit table[i] of the output". -/
def remapFrame (w : Wiring) (cb : Byte) : Byte :=
  bitIndices.foldl (fun frame i => setBit frame (w.line i) (bitAt cb i)) 0x00#8

/-- `INV` (R143): the table with `INV[WIRING[i]] = i`. -/
def inverseWiring (w : Wiring) : Wiring :=
  Wiring.ofFn fun j => (bitIndices.find? fun i => w.line i = j).getD 0

/-- `unremap(frame)` (R143): `cb[INV[j]] := frame[j]`. The block never calls it. -/
def unremapFrame (w : Wiring) (frame : Byte) : Byte :=
  bitIndices.foldl (fun cb j => setBit cb ((inverseWiring w).line j) (bitAt frame j)) 0x00#8

/-- The nibble on the device's D7..D4 when the outputs are `out` (R62). -/
def deviceNibble (w : Wiring) (out : Byte) : Nibble :=
  BitVec.ofBool (bitAt out w.d7) ++ BitVec.ofBool (bitAt out w.d6) ++ BitVec.ofBool (bitAt out w.d5) ++
    BitVec.ofBool (bitAt out w.d4)

/-- `T_EXEC(rs, v)` (R155). -/
def execDelay (c : Config) (rs : Level) (v : Byte) : Nat :=
  if rs then c.tExecData
  else if v = 0x01#8 ∨ v.extractLsb' 1 7 = 0b0000001#7 then c.tExecLong
  else c.tExecShort

end Sys2Proof.Machine
end

