-- ==== Sys2Proof/Machine/Device.lean ====
section
/-! DEFINITION. The informative reception model of the display (20_memory.md R67). No operation of the block depends on it. -/

namespace Sys2Proof.Machine

/-- The mode after a byte whose high nibble is `h` has been executed: a function set (rs = 0 and h[3:1] = 001) selects the
interface width by DL = h[0]; any other byte leaves `other` (R67). -/
def modeAfterByte (rs : Level) (h : Nibble) (other : DeviceMode) : DeviceMode :=
  if rs = false ∧ h.extractLsb' 1 3 = 0b001#3 then (if h.getLsbD 0 then .eight else .fourHi) else other

/-- Reception of `Strobe(rs, 0, n)` (R67). In `Eight` the low half of the byte is a draw. -/
def deviceWrite (rs : Level) (n : Nibble) (d : Device) : Device :=
  match d.mode with
  | .eight =>
    { mode := modeAfterByte rs n .eight
      executed := d.executed ++ [{ rs := rs, byte := n ++ Config.deviceLowNibble d.draws }]
      draws := d.draws + 1 }
  | .fourHi => { d with mode := .fourLo n }
  | .fourLo h =>
    { d with
      mode := modeAfterByte rs h .fourHi
      executed := d.executed ++ [{ rs := rs, byte := h ++ n }] }

/-- Reception of a strobe. R67 gives none for rw = 1, "a `Strobe` with rw = 1 never occurs": the mode is then a free value and
nothing is executed, since a read is no `DevExec` (log entry 8). -/
def deviceReceive (rs rw : Level) (n : Nibble) (d : Device) : Device :=
  if rw then { d with mode := Config.deviceModeAfterRead d.draws, draws := d.draws + 1 } else deviceWrite rs n d

end Sys2Proof.Machine
end

