-- ==== Sys2Proof/Machine/Ops.lean ====
section
/-! DEFINITION. The primitives of 00_scope.md R9 (`SetLine`, `Delay`, `raise Fault`, and the `Strobe` event of the device
edge), the two edge effects (R28, R29), the sequencing of primitives, and the frame of one whole operation. The block has no
memory (R36): the primitives act on the lines, the shift register and the trace. -/

namespace Sys2Proof.Machine

/-- Append one event to `TRACE` (R38). -/
def emit (e : Event) (s : State) : State := { s with trace := s.trace ++ [e] }

/-- `raise Fault(r)`, the fault entry of R214, in its order: `FAULT`, the event, `SEQ <- Idle`. The operation's return without
a further event is `andThen`. No operation returns from a fault (R215). -/
def raise (r : FaultReason) (s : State) : State :=
  { emit (.fault r) { s with fault := some r } with seq := .idle }

/-- `s` and then `f`, unless a fault has been raised: then the operation has ended "without any further event" (R214). -/
def andThen (s : State) (f : State → State) : State :=
  match s.fault with
  | none => f s
  | some _ => s

/-- `DeviceEdge(old, new)` (R62): a device write when EN falls, with the new output values (D21). An EN rise or an unchanged
EN is none (R63). -/
def deviceEdge (old new : Byte) (s : State) : State :=
  let w := s.cfg.wiring
  if bitAt old w.en = true ∧ bitAt new w.en = false then
    let rs := bitAt new w.rs
    let rw := bitAt new w.rw
    let n := deviceNibble w new
    { emit (.strobe rs rw n) s with device := deviceReceive rs rw n s.device }
  else s

/-- `({DATA, 7'b0}) | (STAGE >> 1)` (R28). -/
def shiftIn (data : Level) (stage : Byte) : Byte := (BitVec.ofBool data ++ 0#7) ||| (stage >>> 1)

/-- `min(LINKCNT + 1, 8)` (R28). -/
def countEdge (c : Fin 9) : Fin 9 := ⟨min (c.val + 1) 8, by omega⟩

/-- The effect of a CLK rising edge (R28). -/
def clkRise (s : State) : State :=
  { s with stage := shiftIn s.line.data s.stage, linkcnt := countEdge s.linkcnt }

/-- The effect of a LATCH rising edge (R29): all 8 outputs at once, then the device edge. -/
def latchRise (s : State) : State := deviceEdge s.out s.stage { s with out := s.stage, linkcnt := 0 }

/-- `SetLine(L, b)` (R9): the event, the level, and the edge effect if the write is a rising edge of CLK or LATCH. No other
transition has an effect (R30). -/
def setLine (l : Line) (b : Level) (s : State) : State :=
  let written := { emit (.lineWrite l b) s with line := s.line.set l b }
  match l, s.line.get l, b with
  | .clk, false, true => clkRise written
  | .latch, false, true => latchRise written
  | _, _, _ => written

/-- `Delay(kind, t)` (R9, R200): one event; the elapsed time is not modelled (R203, D16). -/
def delayFor (kind : DelayKind) (t : Nat) (s : State) : State := emit (.delay kind t) s

/-- Whether a caller may make a call: the host makes the upstream calls only (R95, R221), a caller inside the block any
operation (R96, R213; log entry 4). -/
def mayCall (caller : Caller) (op : Instr) : Bool :=
  match caller with
  | .host => op.isUpstream
  | .inside => true

/-- One whole operation, called between operations (R10, R12). While `FAULT` is set no operation has a step (R214), and that
comes before any check of the operation (R216); operations never overlap (R159). -/
def runOperation (body : State → State) (s : State) : Host.Outcome State Fault Refusal :=
  match s.fault with
  | some r => .fault (.stuckAfterFault r)
  | none =>
    match s.seq with
    | .busy _ _ => .fault .overlappingCall
    | .idle => .next (body s)

end Sys2Proof.Machine
end

