-- ==== Sys2Proof/Machine/Flags.lean ====
section
/-! DEFINITION. The block has no status flags or condition codes (R35). What it has instead is the status its entry checks
read, `DSTATE` (R23) and `LINKCNT` (R27): the four checks of R210, each the very first thing its operation does, before any
event (R214). -/

namespace Sys2Proof.Machine

/-- `if DSTATE != Ready: raise Fault(NOT_READY)` (R152, R153, R154, R211). -/
def requireReady (body : State → State) (s : State) : State :=
  if s.dstate = .ready then body s else raise .notReady s

/-- `if DSTATE != Uninitialized: raise Fault(REINIT)` (R180, R212). -/
def requireUninitialized (body : State → State) (s : State) : State :=
  if s.dstate = .uninitialized then body s else raise .reinit s

/-- `if LINKCNT = 8: raise Fault(UNLATCHED_TRANSMIT)` (R120, R121). -/
def requireLatched (body : State → State) (s : State) : State :=
  if s.linkcnt = 8 then raise .unlatchedTransmit s else body s

/-- `if LINKCNT != 8: raise Fault(PARTIAL_LATCH)` (R122, R123). -/
def requireComplete (body : State → State) (s : State) : State :=
  if s.linkcnt = 8 then body s else raise .partialLatch s

/-- The numeric code of a fault reason (R210). -/
def faultCode : FaultReason → Nat
  | .notReady => 1
  | .reinit => 2
  | .partialLatch => 3
  | .unlatchedTransmit => 4

end Sys2Proof.Machine
end

