-- ==== Sys2Proof/Machine/Delay.lean ====
section
/-! DEFINITION. The timing primitive (44_delay.md). -/

namespace Sys2Proof.Machine

/-- The operation `delay(kind, t)` (R200). -/
def execDelayFor (kind : DelayKind) (t : Nat) (s : State) : Host.Outcome State Fault Refusal :=
  runOperation (delayFor kind t) s

end Sys2Proof.Machine
end

