-- ==== Sys2Proof/Machine/SerialLink.lean ====
section
/-! DEFINITION. SerialLink (40_serial_link.md): `transmit`, `latch`, `send`. The only operations that call `SetLine` (R125). -/

namespace Sys2Proof.Machine

/-- One bit cell (R93): DATA, then CLK high, then CLK low. -/
def bitCell (b : Level) (s : State) : State := setLine .clk false (setLine .clk true (setLine .data b s))

/-- The bit cells of a list of bits, the first bit first. -/
def shiftOut : List Level → State → State
  | [], s => s
  | b :: bs, s => shiftOut bs (bitCell b s)

/-- `transmit(b)` (R120), bit 0 first, after the check of R121. -/
def transmit (b : Byte) : State → State := requireLatched (shiftOut (bitsOf b))

/-- The latch pulse (R93): LATCH low, then high. -/
def latchPulse (s : State) : State := setLine .latch true (setLine .latch false s)

/-- `latch()` (R123), after the check of R122. -/
def latch : State → State := requireComplete latchPulse

/-- `send(b)` (R124): transmit, then latch. -/
def send (b : Byte) (s : State) : State := andThen (transmit b s) latch

/-- The operation `transmit(b)` (R120). -/
def execTransmit (b : Byte) (s : State) : Host.Outcome State Fault Refusal := runOperation (transmit b) s

/-- The operation `latch()` (R123). -/
def execLatch (s : State) : Host.Outcome State Fault Refusal := runOperation latch s

/-- The operation `send(b)` (R124). -/
def execSend (b : Byte) (s : State) : Host.Outcome State Fault Refusal := runOperation (send b) s

end Sys2Proof.Machine
end

