-- ==== Sys2Proof/Machine/DisplayController.lean ====
section
/-! DEFINITION. DisplayController framing (42_display_controller.md): the nibble transfer and its two ControlBytes, the byte
transfer, and the three write calls. It reaches the lines through `send` only. -/

namespace Sys2Proof.Machine

/-- `ACC <- cb; send(remap(ACC))`: one of the two sends of a nibble transfer (R150). -/
def present (cb : Byte) (s : State) : State := send (remapFrame s.cfg.wiring cb) { s with acc := cb }

/-- `nibble(n, rs)` (R150), its four steps in order. -/
def nibbleTransfer (n : Nibble) (rs : Level) (s : State) : State :=
  andThen (present (controlByte n rs true) s) fun s1 =>
  andThen (present (clearEn s1.acc) s1) fun s2 =>
  delayFor .nibble s2.cfg.tNibble s2

/-- `write_byte(v, rs)` (R151): high nibble, low nibble, execution delay. -/
def writeByte (v : Byte) (rs : Level) (s : State) : State :=
  andThen (nibbleTransfer (highNibble v) rs s) fun s1 =>
  andThen (nibbleTransfer (lowNibble v) rs s1) fun s2 =>
  delayFor .exec (execDelay s2.cfg rs v) s2

/-- `write_command(v)` (R152). -/
def writeCommand (v : Byte) : State → State := requireReady (writeByte v false)

/-- `write_data(v)` (R153). -/
def writeData (v : Byte) : State → State := requireReady (writeByte v true)

/-- One `write_data` for each code, in order (R154). -/
def writeCodes : List Byte → State → State
  | [], s => s
  | c :: cs, s => andThen (writeData c s) (writeCodes cs)

/-- `write_string(s)` (R154): the check is made once at the call, also for the empty string (D17). -/
def writeString (codes : List Byte) : State → State := requireReady (writeCodes codes)

/-- The operation `nibble(n, rs)` (R150). -/
def execNibble (n : Nibble) (rs : Level) (s : State) : Host.Outcome State Fault Refusal :=
  runOperation (nibbleTransfer n rs) s

/-- The operation `write_byte(v, rs)` (R151). -/
def execWriteByte (v : Byte) (rs : Level) (s : State) : Host.Outcome State Fault Refusal := runOperation (writeByte v rs) s

/-- The operation `write_command(v)` (R152). -/
def execWriteCommand (v : Byte) (s : State) : Host.Outcome State Fault Refusal := runOperation (writeCommand v) s

/-- The operation `write_data(v)` (R153). -/
def execWriteData (v : Byte) (s : State) : Host.Outcome State Fault Refusal := runOperation (writeData v) s

/-- The operation `write_string(s)` (R154). -/
def execWriteString (codes : List Byte) (s : State) : Host.Outcome State Fault Refusal := runOperation (writeString codes) s

/-- The ControlByte pattern `CB_EN1` (R150 steps 1 and 2): the accumulator takes it, and its frame is sent (log entry 9). -/
def execCbEn1 (rs : Level) (n : Nibble) (s : State) : Host.Outcome State Fault Refusal :=
  runOperation (present (controlByte n rs true)) s

/-- The ControlByte pattern `CB_EN0` (R150 step 3): the accumulator takes it, and its frame is sent (log entry 9). -/
def execCbEn0 (rs : Level) (n : Nibble) (s : State) : Host.Outcome State Fault Refusal :=
  runOperation (present (controlByte n rs false)) s

end Sys2Proof.Machine
end

