-- ==== Sys2Proof/Machine/LcdInit.lean ====
section
/-! DEFINITION. The initialization state machine (43_lcd_init.md): `initialize`. -/

namespace Sys2Proof.Machine

/-- A single-nibble step of the sequence: `nibble(n, 0); Delay(kind, t)` (R182, R183). -/
def nibbleStep (n : Nibble) (kind : DelayKind) (t : Nat) (s : State) : State :=
  andThen (nibbleTransfer n false s) (delayFor kind t)

/-- Steps 1 to 9 and the completion (R181 to R188), in strict order (R191). -/
def initSequence (s : State) : State :=
  let c := s.cfg
  andThen (delayFor .powerOn c.tPowerOn { s with dstate := .initializing }) fun s =>
  andThen (nibbleStep 0x3#4 .reset1 c.tReset1 s) fun s =>
  andThen (nibbleStep 0x3#4 .reset2 c.tReset2 s) fun s =>
  andThen (nibbleStep 0x3#4 .reset3 c.tReset3 s) fun s =>
  andThen (nibbleStep 0x2#4 .fourBit c.tFourBit s) fun s =>
  andThen (writeByte c.initFunctionSet false s) fun s =>
  andThen (writeByte Config.initDisplayControl false s) fun s =>
  andThen (writeByte Config.initEntryMode false s) fun s =>
  andThen (writeByte Config.initClear false s) fun s =>
  { s with dstate := .ready }

/-- `initialize()` (R180). -/
def initialiseDisplay : State → State := requireUninitialized initSequence

/-- The operation `initialize()` (R180). -/
def execInitialise (s : State) : Host.Outcome State Fault Refusal := runOperation initialiseDisplay s

end Sys2Proof.Machine
end

