-- ==== Sys2Proof/Machine/PinRemapper.lean ====
section
/-! DEFINITION. PinRemapper (41_pin_remapper.md): `remap`, a pure function of its operand and `WIRING` (R144). -/

namespace Sys2Proof.Machine

/-- The operation `remap(cb)` (R140), total over all 8-bit inputs (log entry 21): no event and no state of the block written; it
returns the frame. -/
def execRemap (cb : Byte) (s : State) : Host.Outcome State Fault Refusal :=
  runOperation (fun s => { s with result := some (remapFrame s.cfg.wiring cb) }) s

end Sys2Proof.Machine
end

