-- ==== Sys2Proof/Machine/Dispatch.lean ====
section
/-! DEFINITION. The dispatch of an operation to its meaning, one arm for each constructor of Instr. -/

namespace Sys2Proof.Machine

def exec (i : Instr) (s : State) : Host.Outcome State Fault Refusal :=
  match i with
  -- upstream calls (R95)
  | .initialise => Sys2Proof.Machine.execInitialise s
  | .writeCommand v => Sys2Proof.Machine.execWriteCommand v s
  | .writeData v => Sys2Proof.Machine.execWriteData v s
  | .writeString codes => Sys2Proof.Machine.execWriteString codes s
  -- internal operations (R96)
  | .transmit b => Sys2Proof.Machine.execTransmit b s
  | .latch => Sys2Proof.Machine.execLatch s
  | .send b => Sys2Proof.Machine.execSend b s
  | .remap cb => Sys2Proof.Machine.execRemap cb s
  | .nibble n rs => Sys2Proof.Machine.execNibble n rs s
  | .writeByte v rs => Sys2Proof.Machine.execWriteByte v rs s
  | .delay kind t => Sys2Proof.Machine.execDelayFor kind t s
  -- ControlByte patterns (R98)
  | .cbEn1 rs n => Sys2Proof.Machine.execCbEn1 rs n s
  | .cbEn0 rs n => Sys2Proof.Machine.execCbEn0 rs n s

end Sys2Proof.Machine
end

