-- ==== Sys2Proof/Machine/Sequencer.lean ====
section
/-! DEFINITION. The sequencer `SEQ` (10_state.md R34): every operation as its flat expansion into primitive events (R10, R93,
R97, R120 to R124, R150 to R154, R180, R200), and the run of that expansion one event at a time. -/

namespace Sys2Proof.Machine

/-- One entry of an expansion: a primitive event, or something that happens between two events. -/
inductive Action where
  /-- `SetLine(L, b)`: an event. -/
  | setLine (l : Line) (b : Level)
  /-- `Delay(kind, t)`: an event. -/
  | delay (kind : DelayKind) (t : Nat)
  /-- `ACC <- cb`. -/
  | writeAcc (cb : Byte)
  /-- `DSTATE <- d`. -/
  | writeDState (d : DState)
  /-- The check of R152 to R154. -/
  | checkReady
  /-- The check of R180. -/
  | checkUninitialized
  /-- The check of R121. -/
  | checkLatched
  /-- The check of R122. -/
  | checkComplete
  /-- The return value of `remap` (R140). -/
  | returnValue (v : Byte)
deriving DecidableEq, Repr

/-- The entries that are primitive events. -/
def Action.isEvent : Action → Bool
  | .setLine _ _ => true
  | .delay _ _ => true
  | .writeAcc _ => false
  | .writeDState _ => false
  | .checkReady => false
  | .checkUninitialized => false
  | .checkLatched => false
  | .checkComplete => false
  | .returnValue _ => false

/-- The effect of one entry. -/
def Action.effect (a : Action) (s : State) : State :=
  match a with
  | .setLine l b => Machine.setLine l b s
  | .delay k t => delayFor k t s
  | .writeAcc cb => { s with acc := cb }
  | .writeDState d => { s with dstate := d }
  | .checkReady => requireReady id s
  | .checkUninitialized => requireUninitialized id s
  | .checkLatched => requireLatched id s
  | .checkComplete => requireComplete id s
  | .returnValue v => { s with result := some v }

/-- Entries in order, none after a fault (R214). -/
def runActions : List Action → State → State
  | [], s => s
  | a :: as, s => runActions as (andThen s a.effect)

/-- The bit cells of R93. -/
def cellActions (bits : List Level) : List Action :=
  bits.flatMap fun b => [.setLine .data b, .setLine .clk true, .setLine .clk false]

/-- `transmit(b)` (R120). -/
def transmitActions (b : Byte) : List Action := .checkLatched :: cellActions (bitsOf b)

/-- `latch()` (R123). -/
def latchActions : List Action := [.checkComplete, .setLine .latch false, .setLine .latch true]

/-- `send(b)` (R124). -/
def sendActions (b : Byte) : List Action := transmitActions b ++ latchActions

/-- One ControlByte of a nibble transfer (R150). -/
def presentActions (c : Config) (cb : Byte) : List Action := .writeAcc cb :: sendActions (remapFrame c.wiring cb)

/-- `nibble(n, rs)` (R150). -/
def nibbleActions (c : Config) (n : Nibble) (rs : Level) : List Action :=
  presentActions c (controlByte n rs true) ++ presentActions c (controlByte n rs false) ++ [.delay .nibble c.tNibble]

/-- `write_byte(v, rs)` (R151). -/
def byteActions (c : Config) (v : Byte) (rs : Level) : List Action :=
  nibbleActions c (highNibble v) rs ++ nibbleActions c (lowNibble v) rs ++ [.delay .exec (execDelay c rs v)]

/-- `initialize()` (R180). -/
def initActions (c : Config) : List Action :=
  [.checkUninitialized, .writeDState .initializing, .delay .powerOn c.tPowerOn] ++
  nibbleActions c 0x3#4 false ++ [.delay .reset1 c.tReset1] ++
  nibbleActions c 0x3#4 false ++ [.delay .reset2 c.tReset2] ++
  nibbleActions c 0x3#4 false ++ [.delay .reset3 c.tReset3] ++
  nibbleActions c 0x2#4 false ++ [.delay .fourBit c.tFourBit] ++
  byteActions c c.initFunctionSet false ++ byteActions c Config.initDisplayControl false ++
  byteActions c Config.initEntryMode false ++ byteActions c Config.initClear false ++ [.writeDState .ready]

/-- The expansion of an operation. -/
def expansion (c : Config) : Instr → List Action
  | .initialise => initActions c
  | .writeCommand v => .checkReady :: byteActions c v false
  | .writeData v => .checkReady :: byteActions c v true
  | .writeString codes => .checkReady :: codes.flatMap fun v => .checkReady :: byteActions c v true
  | .transmit b => transmitActions b
  | .latch => latchActions
  | .send b => sendActions b
  | .remap cb => [.returnValue (remapFrame c.wiring cb)]
  | .nibble n rs => nibbleActions c n rs
  | .writeByte v rs => byteActions c v rs
  | .delay kind t => [.delay kind t]
  | .cbEn1 rs n => presentActions c (controlByte n rs true)
  | .cbEn0 rs n => presentActions c (controlByte n rs false)

/-- What happens before the first event. -/
def beforeFirstEvent (as : List Action) : List Action := as.takeWhile fun a => !a.isEvent

/-- Event by event: each event with what happens between it and the next one. -/
def eventGroups : List Action → List (List Action)
  | [] => []
  | a :: as => if a.isEvent then (a :: beforeFirstEvent as) :: eventGroups as else eventGroups as

/-- The number of primitive events of an operation that meets no fault. -/
def eventCount (c : Config) (op : Instr) : Nat := (eventGroups (expansion c op)).length

/-- `SEQ` when the next event of `op` is number `i`: `Busy(op, i)`, or `Idle` after the last event or a fault (R34). -/
def settleSeq (op : Instr) (i : Nat) (s : State) : State :=
  andThen s fun s => if i < eventCount s.cfg op then { s with seq := .busy op i } else { s with seq := .idle }

/-- The start of a call between operations: the entry checks and writes that come before the first event. -/
def beginOperation (op : Instr) (s : State) : State :=
  settleSeq op 0 (runActions (beforeFirstEvent (expansion s.cfg op)) s)

/-- One primitive event of the running operation, and the index's advance (R34). `Idle` stays as it is. -/
def sequencerTick (s : State) : State :=
  match s.seq with
  | .idle => s
  | .busy op i => settleSeq op (i + 1) (runActions ((eventGroups (expansion s.cfg op)).getD i []) s)

/-- `n` events. -/
def sequencerRun : Nat → State → State
  | 0, s => s
  | n + 1, s => sequencerRun n (sequencerTick s)

end Sys2Proof.Machine
end

