-- ==== Sys2Proof/Machine/Step.lean ====
section
/-! DEFINITION. One step of the machine: the oldest call, run as one whole operation (R10, R12, R69). -/

namespace Sys2Proof.Machine

/-- One step. A configuration that R217 refuses has no run; a set `FAULT` has no step (R214), before anything else is checked
(R216); an operation that is under way is continued by its next event (R34); otherwise the oldest call runs to completion
(R12), unless it is a liberty that R221 does not give the host. With no call the block stays `Idle` as it is (R34, R248; log entry 14). -/
def step (s : State) : Host.Outcome State Fault Refusal :=
  match s.cfg.defect with
  | some d => .refused (.illegalConfiguration d)
  | none =>
    match s.fault with
    | some r => .fault (.stuckAfterFault r)
    | none =>
      match s.seq with
      | .busy _ _ => .next (sequencerTick s)
      | .idle =>
        match s.calls with
        | [] => .next s
        | call :: rest =>
          match decode call.record with
          | .error e => .refused (.undecodable e)
          | .ok i => if mayCall call.caller i then exec i { s with calls := rest } else .refused (.notUpstream i)

/-- `s` with one more call, in front of the others: the next call that `step` runs. A program comes to run from reset by its
calls being placed in `calls` from outside (log entry 3). The caller is inside the block, since a word may name any operation
(log entry 4). -/
def State.withFetchWord (s : State) (nbits w : Nat) : State :=
  { s with calls := { caller := .inside, record := recordOfWord nbits w } :: s.calls }

end Sys2Proof.Machine
end

