-- ==== Sys2Proof/Safety.lean ====
section
/-! DEFINITION. The terms claims use: the premises the spec names (`LinesLow`, `TimingOK`, the host's duties), a completed
run, the event lists that the spec's rules count and list, the effect of a nibble and of a byte as one record, and the
invariants of the machine between operations. -/

namespace Sys2Proof.Machine

/-- The launch premise `LinesLow` (R26, D7). -/
abbrev LinesLow (s : State) : Prop := s.line = { data := false, clk := false, latch := false }

/-- Between operations, and no fault (R34, R214): a call can start. -/
abbrev CanStart (s : State) : Prop := s.fault = none ∧ s.seq = .idle

/-- The link can take a transmit: no unlatched byte waits (R121) and CLK is low, which `LinesLow` gives at launch and every
transmit keeps (R120). -/
abbrev LinkOpen (s : State) : Prop := s.linkcnt ≠ 8 ∧ s.line.clk = false

/-- A completed run (R248): the host has made its last call, `SEQ = Idle`, `FAULT = none`. -/
abbrev Completed (s : State) : Prop := s.calls = [] ∧ s.seq = .idle ∧ s.fault = none

/-- Every call is the host's own (R221): nothing is called from inside the block. What the host asks for is free, since `step`
refuses what is no upstream call. -/
def UpstreamHost (calls : List Call) : Prop := ∀ call ∈ calls, call.caller = .host

/-- The three line writes of each bit (R93). -/
def cellEvents (bits : List Level) : List Event :=
  bits.flatMap fun b => [.lineWrite .data b, .lineWrite .clk true, .lineWrite .clk false]

/-- The two line writes of a latch pulse (R93). -/
def pulseEvents : List Event := [.lineWrite .latch false, .lineWrite .latch true]

/-- The 26 line writes of `send(f)` (R93). -/
def lineWrites (f : Byte) : List Event := cellEvents (bitsOf f) ++ pulseEvents

/-- The device write, if any, when the outputs go from `old` to `new` (R62, R63). -/
def strobeEvents (w : Wiring) (old new : Byte) : List Event :=
  if bitAt old w.en = true ∧ bitAt new w.en = false then
    [.strobe (bitAt new w.rs) (bitAt new w.rw) (deviceNibble w new)]
  else []

/-- The events of `nibble(n, rs)` (R150). -/
def nibbleEvents (c : Config) (n : Nibble) (rs : Level) : List Event :=
  lineWrites (remapFrame c.wiring (controlByte n rs true)) ++ lineWrites (remapFrame c.wiring (controlByte n rs false)) ++
    [.strobe rs false n, .delay .nibble c.tNibble]

/-- The events of `write_byte(v, rs)` (R151). -/
def byteEvents (c : Config) (v : Byte) (rs : Level) : List Event :=
  nibbleEvents c (highNibble v) rs ++ nibbleEvents c (lowNibble v) rs ++ [.delay .exec (execDelay c rs v)]

/-- The events of one `initialize()` (R180 to R188). -/
def initEvents (c : Config) : List Event :=
  [.delay .powerOn c.tPowerOn] ++
  nibbleEvents c 0x3#4 false ++ [.delay .reset1 c.tReset1] ++
  nibbleEvents c 0x3#4 false ++ [.delay .reset2 c.tReset2] ++
  nibbleEvents c 0x3#4 false ++ [.delay .reset3 c.tReset3] ++
  nibbleEvents c 0x2#4 false ++ [.delay .fourBit c.tFourBit] ++
  byteEvents c c.initFunctionSet false ++ byteEvents c 0x0C#8 false ++ byteEvents c 0x06#8 false ++ byteEvents c 0x01#8 false

/-- The strobes of a trace, in order (R62). -/
def strobesOf (es : List Event) : List (Level × Level × Nibble) :=
  es.filterMap fun e => match e with
    | .strobe rs rw n => some (rs, rw, n)
    | _ => none

/-- The delays of a trace, in order (R200). -/
def delaysOf (es : List Event) : List (DelayKind × Nat) :=
  es.filterMap fun e => match e with
    | .delay k t => some (k, t)
    | _ => none

/-- The line writes of a trace, in order (R9). -/
def lineWritesOf (es : List Event) : List (Line × Level) :=
  es.filterMap fun e => match e with
    | .lineWrite l b => some (l, b)
    | _ => none

/-- The fault events of a trace, in order (R214). -/
def faultsOf (es : List Event) : List FaultReason :=
  es.filterMap fun e => match e with
    | .fault r => some r
    | _ => none

/-- The device after strobes in trace order (R67). -/
def deviceAfter (d : Device) (strobes : List (Level × Level × Nibble)) : Device :=
  strobes.foldl (fun d x => deviceReceive x.1 x.2.1 x.2.2 d) d

/-- The link and the shift register after `send(f)` (R124). -/
def linkHolding (f : Byte) (s : State) : State :=
  { s with stage := f, out := f, linkcnt := 0, line := { data := bitAt f 7, clk := false, latch := true } }

/-- The effect of `nibble(n, rs)` as one record (R150): what it leaves in the block, its events, the device's reception. -/
def nibbleEffect (n : Nibble) (rs : Level) (s : State) : State :=
  { linkHolding (remapFrame s.cfg.wiring (controlByte n rs false)) s with
    acc := controlByte n rs false
    trace := s.trace ++ nibbleEvents s.cfg n rs
    device := deviceReceive rs false n s.device }

/-- The effect of `write_byte(v, rs)` as one record (R151). -/
def byteEffect (v : Byte) (rs : Level) (s : State) : State :=
  { linkHolding (remapFrame s.cfg.wiring (controlByte (lowNibble v) rs false)) s with
    acc := controlByte (lowNibble v) rs false
    trace := s.trace ++ byteEvents s.cfg v rs
    device := deviceReceive rs false (lowNibble v) (deviceReceive rs false (highNibble v) s.device) }

/-- The effect of `raise Fault(r)` as one record (R214): only `FAULT`, `TRACE` and `SEQ` change. -/
def faultEffect (r : FaultReason) (s : State) : State :=
  { s with fault := some r, trace := s.trace ++ [.fault r], seq := .idle }

/-- Every delay of the trace asks for at least the device's minimum for its kind (R202). -/
def MinimaRespected (min : DelayKind → Nat) (es : List Event) : Prop :=
  ∀ k t, (k, t) ∈ delaysOf es → min k ≤ t

/-- `TimingOK(trace, MIN)` (R202), where `delivered j` is the time that the platform took for the j-th delay (R200). -/
def TimingOK (min : DelayKind → Nat) (delivered : Nat → Nat) (es : List Event) : Prop :=
  MinimaRespected min es ∧ ∀ j k t, (delaysOf es)[j]? = some (k, t) → t ≤ delivered j

/-- The build's durations cover the device's minima (R31, R202). -/
def DurationsCover (min : DelayKind → Nat) (c : Config) : Prop :=
  min .powerOn ≤ c.tPowerOn ∧ min .reset1 ≤ c.tReset1 ∧ min .reset2 ≤ c.tReset2 ∧ min .reset3 ≤ c.tReset3 ∧
  min .fourBit ≤ c.tFourBit ∧ min .nibble ≤ c.tNibble ∧
  min .exec ≤ c.tExecShort ∧ min .exec ≤ c.tExecLong ∧ min .exec ≤ c.tExecData

/-- What holds between operations, whatever operations are called. -/
structure BlockInv (s : State) : Prop where
  /-- Runs exist only for a legal configuration (R217). -/
  legal : s.cfg.Legal
  /-- No operation is under way (R34). -/
  idle : s.seq = .idle
  /-- "`LINKCNT` values 1..7 never hold between operations" (R121). -/
  whole : s.linkcnt = 0 ∨ s.linkcnt = 8
  /-- Every transmit leaves CLK at 0 (R120). -/
  clkLow : s.line.clk = false
  /-- The accumulator holds a ControlByte that the block may emit (R22, R98). -/
  accLegal : IsLegalControlByte s.acc
  /-- `Initializing` holds only while `initialize()` runs (R23, D28). -/
  settled : s.fault = none → s.dstate ≠ .initializing
  /-- `FAULT` is the one fault the trace records (R33, R214). -/
  recorded : faultsOf s.trace = s.fault.toList
  /-- With no byte waiting, the outputs show the stages since the first latch (R124). -/
  latched : s.linkcnt = 0 → s.line.latch = true → s.out = s.stage

/-- What holds, beyond `BlockInv`, when the host is the only caller (R221). -/
structure UpstreamInv (s : State) : Prop extends BlockInv s where
  /-- The calls to come are the host's. -/
  host : UpstreamHost s.calls
  /-- DisplayController uses only `send`, so no byte ever waits (R124, R213). -/
  sent : s.linkcnt = 0
  /-- `PARTIAL_LATCH` and `UNLATCHED_TRANSMIT` "cannot be reached" (R213). -/
  noLinkFault : s.fault ≠ some .partialLatch ∧ s.fault ≠ some .unlatchedTransmit
  /-- "A `Strobe` with rw = 1 never occurs" (R67, R98). -/
  writesOnly : ∀ x ∈ strobesOf s.trace, x.2.1 = false

end Sys2Proof.Machine
end

