-- ==== Sys2Proof/Certificates/Slice0/Obligations.lean ====
section
/-! DEFINITION. The statements for the provers. Each docstring names the rules of spec/ it formalises. A result statement gives
the whole next state as a record update of the old one, so it states the frame too: every field that is not named is unchanged.
The block has no memory (R36) and no program counter (R34); what it stores to are the lines, the shift register and the trace. -/

open Sys2Proof Sys2Proof.Machine

/-! ## Encodings -/

/-- R91: `CB(n, rs, en)` in both of the rule's forms; 64 distinct results; the rule's examples; and its bits 7 and 5 are clear, a
sentence that the spec marks derived from the rule. -/
def Obligations.ControlByteAssembly : Prop :=
  (∀ n rs en, controlByte n rs en = 0#1 ++ BitVec.ofBool en ++ 0#1 ++ BitVec.ofBool rs ++ n) ∧
  (∀ n rs en, controlByte n rs en =
    ((BitVec.ofBool en).setWidth 8 <<< 6) ||| ((BitVec.ofBool rs).setWidth 8 <<< 4) ||| n.setWidth 8) ∧
  (∀ n rs en, (controlByte n rs en).getLsbD 7 = false ∧ (controlByte n rs en).getLsbD 5 = false) ∧
  (∀ n rs en n' rs' en', controlByte n rs en = controlByte n' rs' en' → n = n' ∧ rs = rs' ∧ en = en') ∧
  controlByte 0x4#4 true true = 0x54#8 ∧ controlByte 0x4#4 true false = 0x14#8 ∧ controlByte 0x3#4 false true = 0x43#8 ∧
  controlByte 0xF#4 true true = 0x5F#8 ∧ controlByte 0x0#4 false false = 0x00#8

/-- R98, R102: among one-byte records, the ControlBytes that `CB` builds are read as the patterns `CB_EN1` and `CB_EN0` with
their fields, nothing else is read as one, and a ControlByte with RW = 1 is refused (the record form is the model's, log entry 3). -/
def Obligations.ControlByteRecordsDecode : Prop :=
  (∀ n rs, decode [controlByte n rs true] = .ok (.cbEn1 rs n) ∧ decode [controlByte n rs false] = .ok (.cbEn0 rs n)) ∧
  (∀ b rs n, decode [b] = .ok (.cbEn1 rs n) → b = controlByte n rs true) ∧
  (∀ b rs n, decode [b] = .ok (.cbEn0 rs n) → b = controlByte n rs false) ∧
  (∀ b : Byte, b.getLsbD 7 = false → b.getLsbD 5 = true → decode [b] = .error (.illegalControlByte b))

/-- R95, R96, R102 with the model's records (log entry 3): decoding the record of any operation gives it back, with every
operand at every value. -/
def Obligations.DecodeOfEncode : Prop := ∀ i : Instr, decode (encode i) = .ok i

/-- The converse: a record that decodes is the record of its operation, so no two records name one operation (log entry 3). -/
def Obligations.EncodeOfDecode : Prop := ∀ record i, decode record = .ok i → encode i = record

/-- One record of each family, written out bit by bit: the ControlBytes from R90 and the table, the others from log entry 3. -/
def Obligations.SampleRecordsDecode : Prop :=
  decode [0b01010100#8] = .ok (.cbEn1 true 0x4#4) ∧
  decode [0b00010100#8] = .ok (.cbEn0 true 0x4#4) ∧
  decode [0b10000000#8] = .ok .initialise ∧
  decode [0b10000001#8, 0b00000001#8] = .ok (.writeCommand 0x01#8) ∧
  decode [0b10000011#8, 0b01001000#8, 0b01001001#8] = .ok (.writeString [0x48#8, 0x49#8]) ∧
  decode [0b10000100#8, 0b01010100#8] = .ok (.transmit 0x54#8) ∧
  decode [0b10000111#8, 0b01010100#8] = .ok (.remap 0x54#8) ∧
  decode [0b10001000#8, 0b00010100#8] = .ok (.nibble 0x4#4 true) ∧
  decode [0b10001010#8, 0b00000110#8, 0b11110000#8, 0b00000101#8] = .ok (.delay .exec 1520)

/-! ## The step -/

/-- R10, R12, R69: between operations, with a legal configuration and no fault, a step is the operation of the oldest call, if
its caller may make it, with that call taken from the queue. The model's choices: the call queue (log entry 3), its callers (log
entry 4), and that one step is one whole operation (log entry 11). -/
def Obligations.StepRunsDecodedCall : Prop :=
  ∀ s call rest i, s.cfg.Legal → CanStart s → s.calls = call :: rest → decode call.record = .ok i →
    mayCall call.caller i = true → step s = exec i { s with calls := rest }

/-- The other cases of a step, in the order in which they are tried. The model's choices: that each step refuses an illegal
configuration of R217, and before it looks at `FAULT` (log entry 19); the stop `stuckAfterFault` for the step that R214 says does
not exist (log entry 12); one event of a running operation (R34; log entries 11, 20); the idle step (log entry 14); records that
name no operation (log entry 3). A call that R221 does not give the host is refused. -/
def Obligations.StepOutsideACall : Prop :=
  (∀ s, ¬ s.cfg.wiring.IsPermutation → step s = .refused (.illegalConfiguration .wiringNotPermutation)) ∧
  (∀ s, s.cfg.wiring.IsPermutation → ¬ IsFourBitFunctionSet s.cfg.initFunctionSet →
    step s = .refused (.illegalConfiguration .functionSetNotFourBit)) ∧
  (∀ s r, s.cfg.Legal → s.fault = some r → step s = .fault (.stuckAfterFault r)) ∧
  (∀ s op i, s.cfg.Legal → s.fault = none → s.seq = .busy op i → step s = .next (sequencerTick s)) ∧
  (∀ s, s.cfg.Legal → CanStart s → s.calls = [] → step s = .next s) ∧
  (∀ s call rest e, s.cfg.Legal → CanStart s → s.calls = call :: rest → decode call.record = .error e →
    step s = .refused (.undecodable e)) ∧
  (∀ s call rest i, s.cfg.Legal → CanStart s → s.calls = call :: rest → decode call.record = .ok i →
    mayCall call.caller i = false → step s = .refused (.notUpstream i))

/-- R95, R221: of all operations the host may call `initialize`, `write_command`, `write_data` and `write_string`, with every
operand, and nothing else: a step on any other call of the host's has no next state, in every state. A caller inside the block
may make every call (R96, R213; log entry 4). -/
def Obligations.HostMayCallUpstreamOnly : Prop :=
  (∀ i, mayCall .host i = true ↔
    i = .initialise ∨ (∃ v, i = .writeCommand v) ∨ (∃ v, i = .writeData v) ∨ ∃ codes, i = .writeString codes) ∧
  (∀ i, mayCall .inside i = true) ∧
  (∀ s call rest i t, s.seq = .idle → s.calls = call :: rest → call.caller = .host → decode call.record = .ok i →
    step s = .next t →
      i = .initialise ∨ (∃ v, i = .writeCommand v) ∨ (∃ v, i = .writeData v) ∨ ∃ codes, i = .writeString codes)

/-! ## PinRemapper -/

/-- R140: `remap` moves bit i to bit `WIRING[i]`; its corner cases; its example; the operation writes no state and emits no
event, and returns the frame (the field `result` is the model's choice, log entry 10). -/
def Obligations.RemapPermutesBits : Prop :=
  (∀ w cb, w.IsPermutation → ∀ i : Fin 8, bitAt (remapFrame w cb) (w.line i) = bitAt cb i) ∧
  (∀ w, w.IsPermutation → remapFrame w 0x00#8 = 0x00#8 ∧ remapFrame w 0xFF#8 = 0xFF#8) ∧
  (∀ w cb, w.IsPermutation → (bitsOf (remapFrame w cb)).count true = (bitsOf cb).count true) ∧
  (∀ cb, remapFrame Wiring.identity cb = cb) ∧
  remapFrame ⟨1, 2, 3, 4, 5, 6, 7, 0⟩ 0x54#8 = 0xA8#8 ∧
  (∀ s cb, CanStart s → exec (.remap cb) s = .next { s with result := some (remapFrame s.cfg.wiring cb) })

/-- R143, whose sentence "For all 256 values" the spec marks derived: `INV[WIRING[i]] = i`; `unremap` is the inverse of `remap`
on both sides, over all 256 values; `INV = WIRING` exactly for an involution. -/
def Obligations.UnremapInvertsRemap : Prop :=
  ∀ w : Wiring, w.IsPermutation →
    (∀ i, (inverseWiring w).line (w.line i) = i) ∧
    (∀ x, unremapFrame w (remapFrame w x) = x) ∧
    (∀ x, remapFrame w (unremapFrame w x) = x) ∧
    (inverseWiring w = w ↔ ∀ i, w.line (w.line i) = i)

/-! ## SerialLink -/

/-- R28: the effect of a CLK rising edge; and what eight of them leave in `STAGE`, which the spec marks derived from the rule, here
through the bit cells of R93, whose other line writes have no effect (R30). -/
def Obligations.ClockEdgeShiftsStage : Prop :=
  (∀ s, s.line.clk = false →
    setLine .clk true s =
      { s with
        trace := s.trace ++ [.lineWrite .clk true]
        line := { s.line with clk := true }
        stage := (BitVec.ofBool s.line.data ++ 0#7) ||| (s.stage >>> 1)
        linkcnt := countEdge s.linkcnt }) ∧
  (∀ c : Fin 9, (countEdge c).val = min (c.val + 1) 8) ∧
  (∀ s (b : Byte), s.line.clk = false → (shiftOut (bitsOf b) s).stage = b ∧ (shiftOut (bitsOf b) s).linkcnt = 8)

/-- R29: the effect of a LATCH rising edge: all outputs at once, the count to 0, then the device edge. -/
def Obligations.LatchEdgeUpdatesOutputs : Prop :=
  ∀ s, s.line.latch = false →
    setLine .latch true s =
      deviceEdge s.out s.stage
        { s with
          trace := s.trace ++ [.lineWrite .latch true]
          line := { s.line with latch := true }
          out := s.stage
          linkcnt := 0 }

/-- R30, which the spec marks derived from R28 and R29: every other line write only sets the level and appends its event; and no
write to DATA or CLK, a rising CLK that changes `STAGE` among them, changes `OUT`. -/
def Obligations.OtherLineWritesOnlySetLevel : Prop :=
  (∀ s l b, ¬ (l = .clk ∧ s.line.clk = false ∧ b = true) → ¬ (l = .latch ∧ s.line.latch = false ∧ b = true) →
    setLine l b s = { s with trace := s.trace ++ [.lineWrite l b], line := s.line.set l b }) ∧
  (∀ s l b, l ≠ .latch → (setLine l b s).out = s.out)

/-- R62, R63: the device edge. A strobe with the new output values on an EN fall, nothing otherwise (an EN rise among it). -/
def Obligations.DeviceSamplesOnEnFall : Prop :=
  (∀ old new s, bitAt old (s.cfg.wiring.line 6) = true → bitAt new (s.cfg.wiring.line 6) = false →
    ∃ n : Nibble,
      (n.getLsbD 0 = bitAt new (s.cfg.wiring.line 0) ∧ n.getLsbD 1 = bitAt new (s.cfg.wiring.line 1) ∧
        n.getLsbD 2 = bitAt new (s.cfg.wiring.line 2) ∧ n.getLsbD 3 = bitAt new (s.cfg.wiring.line 3)) ∧
      deviceEdge old new s =
        { s with
          trace := s.trace ++ [.strobe (bitAt new (s.cfg.wiring.line 4)) (bitAt new (s.cfg.wiring.line 5)) n]
          device := deviceReceive (bitAt new (s.cfg.wiring.line 4)) (bitAt new (s.cfg.wiring.line 5)) n s.device }) ∧
  (∀ old new s, ¬ (bitAt old (s.cfg.wiring.line 6) = true ∧ bitAt new (s.cfg.wiring.line 6) = false) →
    deviceEdge old new s = s)

/-- R120, R121: `transmit(b)` completes with 24 line writes when no byte waits and CLK is low (`LinesLow` at launch), and
raises `UNLATCHED_TRANSMIT` before any event when one waits. -/
def Obligations.TransmitEffect : Prop :=
  (∀ s b, CanStart s → LinkOpen s →
    exec (.transmit b) s =
      .next { s with
        stage := b
        linkcnt := 8
        line := { data := bitAt b 7, clk := false, latch := s.line.latch }
        trace := s.trace ++ cellEvents (bitsOf b) } ∧
    (cellEvents (bitsOf b)).length = 24) ∧
  (∀ s b, CanStart s → s.linkcnt = 8 → exec (.transmit b) s = .next (faultEffect .unlatchedTransmit s))

/-- R122, R123: `latch()` completes with two line writes, and at most one strobe, when a complete byte waits, and raises
`PARTIAL_LATCH` before any event when none does. -/
def Obligations.LatchEffect : Prop :=
  (∀ s, CanStart s → s.linkcnt = 8 →
    exec .latch s =
      .next { s with
        out := s.stage
        linkcnt := 0
        line := { s.line with latch := true }
        trace := s.trace ++ [.lineWrite .latch false, .lineWrite .latch true] ++ strobeEvents s.cfg.wiring s.out s.stage
        device := deviceAfter s.device (strobesOf (strobeEvents s.cfg.wiring s.out s.stage)) } ∧
    (strobeEvents s.cfg.wiring s.out s.stage).length ≤ 1 ∧
    (s.out = s.stage → strobeEvents s.cfg.wiring s.out s.stage = [])) ∧
  (∀ s, CanStart s → s.linkcnt ≠ 8 → exec .latch s = .next (faultEffect .partialLatch s))

/-- R124: `send(b)` completes with exactly 26 line writes and at most one strobe, and leaves `STAGE = OUT = b`, also when b
equals `OUT`. -/
def Obligations.SendEffect : Prop :=
  ∀ s b, CanStart s → LinkOpen s →
    exec (.send b) s =
      .next { s with
        stage := b
        out := b
        linkcnt := 0
        line := { data := bitAt b 7, clk := false, latch := true }
        trace := s.trace ++ lineWrites b ++ strobeEvents s.cfg.wiring s.out b
        device := deviceAfter s.device (strobesOf (strobeEvents s.cfg.wiring s.out b)) } ∧
    (lineWrites b).length = 26 ∧ (strobeEvents s.cfg.wiring s.out b).length ≤ 1

/-- R97: `send(b)` is `transmit(b)` and then `latch()`. -/
def Obligations.SendIsTransmitThenLatch : Prop :=
  ∀ s b, CanStart s → LinkOpen s → ∃ t, exec (.transmit b) s = .next t ∧ exec .latch t = exec (.send b) s

/-- R121: over an unlatched byte, `send`, `nibble`, `write_byte` and the two ControlByte patterns raise `UNLATCHED_TRANSMIT` at
their first transmit, with no line write. The model's choices: what a composition has written before stays (log entry 16), and
the patterns run on their own as the sends of R150 (log entry 9). -/
def Obligations.UnlatchedByteStopsEverySend : Prop :=
  ∀ s, CanStart s → s.linkcnt = 8 →
    (∀ b, exec (.send b) s = .next (faultEffect .unlatchedTransmit s)) ∧
    (∀ rs n, exec (.cbEn1 rs n) s = .next (faultEffect .unlatchedTransmit { s with acc := controlByte n rs true })) ∧
    (∀ rs n, exec (.cbEn0 rs n) s = .next (faultEffect .unlatchedTransmit { s with acc := controlByte n rs false })) ∧
    (∀ n rs, exec (.nibble n rs) s = .next (faultEffect .unlatchedTransmit { s with acc := controlByte n rs true })) ∧
    (∀ v rs, exec (.writeByte v rs) s =
      .next (faultEffect .unlatchedTransmit { s with acc := controlByte (highNibble v) rs true }))

/-- R121: over an unlatched byte, the upstream calls that pass their own check raise `UNLATCHED_TRANSMIT` at their first transmit,
with no line write; the empty string sends nothing and changes nothing. What a call has written before stays, `ACC`, and for
`initialize` `DSTATE` and the first delay as well: the model's choice (log entry 16). -/
def Obligations.UnlatchedByteStopsUpstreamCalls : Prop :=
  ∀ s, CanStart s → s.linkcnt = 8 →
    (∀ v, s.dstate = .ready → exec (.writeCommand v) s =
      .next (faultEffect .unlatchedTransmit { s with acc := controlByte (highNibble v) false true })) ∧
    (∀ v, s.dstate = .ready → exec (.writeData v) s =
      .next (faultEffect .unlatchedTransmit { s with acc := controlByte (highNibble v) true true })) ∧
    (∀ c cs, s.dstate = .ready → exec (.writeString (c :: cs)) s =
      .next (faultEffect .unlatchedTransmit { s with acc := controlByte (highNibble c) true true })) ∧
    (s.dstate = .ready → exec (.writeString []) s = .next s) ∧
    (s.dstate = .uninitialized → exec .initialise s =
      .next (faultEffect .unlatchedTransmit { s with
        dstate := .initializing
        acc := controlByte 0x3#4 false true
        trace := s.trace ++ [.delay .powerOn s.cfg.tPowerOn] }))

/-- R66, R124, R30, with the events of log entry 20: event by event, the outputs keep their old value through the first 25
line writes of a `send`, and change only with the last one. -/
def Obligations.SendIsAtomicToTheDevice : Prop :=
  ∀ s b, CanStart s → LinkOpen s →
    (∀ k, k ≤ 25 → (sequencerRun k (beginOperation (.send b) s)).out = s.out) ∧
    (sequencerRun 26 (beginOperation (.send b) s)).out = b

/-! ## DisplayController -/

/-- R150: `nibble(n, rs)`: 52 line writes, exactly one strobe (after the second send), then the settle delay; `ACC` and `OUT`
as the rule gives them, whatever `OUT` held before. -/
def Obligations.NibbleTransferEffect : Prop :=
  ∀ s n rs, s.cfg.Legal → CanStart s → LinkOpen s →
    exec (.nibble n rs) s =
      .next { s with
        acc := controlByte n rs false
        stage := remapFrame s.cfg.wiring (controlByte n rs false)
        out := remapFrame s.cfg.wiring (controlByte n rs false)
        linkcnt := 0
        line := { data := bitAt (remapFrame s.cfg.wiring (controlByte n rs false)) 7, clk := false, latch := true }
        trace := s.trace ++ lineWrites (remapFrame s.cfg.wiring (controlByte n rs true)) ++
          lineWrites (remapFrame s.cfg.wiring (controlByte n rs false)) ++
          [.strobe rs false n, .delay .nibble s.cfg.tNibble]
        device := deviceReceive rs false n s.device }

/-- R150 steps 1 to 3 and log entry 9: the two sends of a nibble transfer on their own. The EN = 1 send is no device write
(R63); the EN = 0 send is one exactly when EN was 1. -/
def Obligations.ControlByteSendEffect : Prop :=
  ∀ s rs n, s.cfg.Legal → CanStart s → LinkOpen s →
    exec (.cbEn1 rs n) s =
      .next { linkHolding (remapFrame s.cfg.wiring (controlByte n rs true)) s with
        acc := controlByte n rs true
        trace := s.trace ++ lineWrites (remapFrame s.cfg.wiring (controlByte n rs true)) } ∧
    exec (.cbEn0 rs n) s =
      .next { linkHolding (remapFrame s.cfg.wiring (controlByte n rs false)) s with
        acc := controlByte n rs false
        trace := s.trace ++ lineWrites (remapFrame s.cfg.wiring (controlByte n rs false)) ++
          (if bitAt s.out (s.cfg.wiring.line 6) = true then [.strobe rs false n] else [])
        device := if bitAt s.out (s.cfg.wiring.line 6) = true then deviceReceive rs false n s.device else s.device }

/-- R150: a nibble transfer is its EN = 1 send, its EN = 0 send and its settle delay, in this order. That the patterns `CB_EN1` and
`CB_EN0` run as these sends on their own is the model's reading of the table's rows (log entry 9). -/
def Obligations.NibbleIsTwoSendsAndADelay : Prop :=
  ∀ s n rs, CanStart s → LinkOpen s →
    ∃ t1 t2, exec (.cbEn1 rs n) s = .next t1 ∧ exec (.cbEn0 rs n) t1 = .next t2 ∧
      exec (.delay .nibble s.cfg.tNibble) t2 = exec (.nibble n rs) s

/-- R150 (corner cases): the EN = 1 frame and the EN = 0 frame differ only at output line `WIRING[6]`. -/
def Obligations.OnlyTheEnableLineDiffers : Prop :=
  ∀ (w : Wiring) n rs (k : Fin 8), w.IsPermutation →
    (bitAt (remapFrame w (controlByte n rs true)) k ≠ bitAt (remapFrame w (controlByte n rs false)) k ↔ k = w.line 6)

/-- R151: `write_byte(v, rs)`: the high nibble, the low nibble, the execution delay; 104 line writes, 2 strobes, 3 delays. -/
def Obligations.WriteByteEffect : Prop :=
  ∀ s v rs, s.cfg.Legal → CanStart s → LinkOpen s →
    exec (.writeByte v rs) s = .next (byteEffect v rs s) ∧
    (lineWritesOf (byteEvents s.cfg v rs)).length = 104 ∧
    strobesOf (byteEvents s.cfg v rs) = [(rs, false, highNibble v), (rs, false, lowNibble v)] ∧
    delaysOf (byteEvents s.cfg v rs) =
      [(.nibble, s.cfg.tNibble), (.nibble, s.cfg.tNibble), (.exec, execDelay s.cfg rs v)]

/-- R157, which the spec marks derived from R151: exactly four sends for a byte; EN = 1, 0, 1, 0; the first two carry the high
nibble, the last two the low one. -/
def Obligations.FourSendsPerByte : Prop :=
  ∀ s v rs, s.cfg.Legal → CanStart s → LinkOpen s →
    ∃ t es, exec (.writeByte v rs) s = .next t ∧ t.trace = s.trace ++ es ∧
      lineWritesOf es = lineWritesOf
        (lineWrites (remapFrame s.cfg.wiring (controlByte (highNibble v) rs true)) ++
         lineWrites (remapFrame s.cfg.wiring (controlByte (highNibble v) rs false)) ++
         lineWrites (remapFrame s.cfg.wiring (controlByte (lowNibble v) rs true)) ++
         lineWrites (remapFrame s.cfg.wiring (controlByte (lowNibble v) rs false))) ∧
      t.out = remapFrame s.cfg.wiring (controlByte (lowNibble v) rs false)

/-- R152: `write_command(v)` in `Ready` is the byte transfer with RS = 0, for every v; otherwise `NOT_READY` before any event. -/
def Obligations.WriteCommandEffect : Prop :=
  (∀ s v, s.cfg.Legal → CanStart s → LinkOpen s → s.dstate = .ready →
    exec (.writeCommand v) s = .next (byteEffect v false s)) ∧
  (∀ s v, CanStart s → s.dstate ≠ .ready → exec (.writeCommand v) s = .next (faultEffect .notReady s))

/-- R153: `write_data(v)` in `Ready` is the byte transfer with RS = 1, for every v; otherwise `NOT_READY` before any event. -/
def Obligations.WriteDataEffect : Prop :=
  (∀ s v, s.cfg.Legal → CanStart s → LinkOpen s → s.dstate = .ready →
    exec (.writeData v) s = .next (byteEffect v true s)) ∧
  (∀ s v, CanStart s → s.dstate ≠ .ready → exec (.writeData v) s = .next (faultEffect .notReady s))

/-- R154: `write_string` in `Ready` is the byte transfers of its codes in order (the empty string changes no
state); otherwise `NOT_READY` before any event, for the empty string too. -/
def Obligations.WriteStringEffect : Prop :=
  (∀ s codes, s.cfg.Legal → CanStart s → LinkOpen s → s.dstate = .ready →
    exec (.writeString codes) s = .next (codes.foldl (fun s c => byteEffect c true s) s)) ∧
  (∀ s codes, s.cfg.Legal → CanStart s → LinkOpen s → s.dstate = .ready →
    ∃ t es, exec (.writeString codes) s = .next t ∧ t.trace = s.trace ++ es ∧
      (lineWritesOf es).length = 104 * codes.length ∧
      strobesOf es = codes.flatMap (fun c => [(true, false, highNibble c), (true, false, lowNibble c)]) ∧
      (delaysOf es).length = 3 * codes.length ∧ faultsOf es = []) ∧
  (∀ s codes, CanStart s → s.dstate ≠ .ready → exec (.writeString codes) s = .next (faultEffect .notReady s))

/-- R97, R154: `write_string` sends one `write_data` for each character, in sequence order. -/
def Obligations.WriteStringIsItsCharacters : Prop :=
  ∀ s c cs, CanStart s → LinkOpen s → s.dstate = .ready →
    ∃ t, exec (.writeData c) s = .next t ∧ exec (.writeString cs) t = exec (.writeString (c :: cs)) s

/-- R151, R155: the last event of a byte transfer is its execution delay: the data time for a character, the long time for clear
and home, the short time for every other command. R155 calls these classes the spec's own choice; whether a time is long enough
for the device is the premise of R202. -/
def Obligations.ExecutionDelayIsLast : Prop :=
  ∀ s v rs, CanStart s → LinkOpen s →
    ∃ t, exec (.writeByte v rs) s = .next t ∧
      t.trace.getLast? = some (.delay .exec
        (if rs = true then s.cfg.tExecData
         else if v = 0x01#8 ∨ v = 0x02#8 ∨ v = 0x03#8 then s.cfg.tExecLong
         else s.cfg.tExecShort))

/-- R156: every call performs its whole expansion: an equal command is sent again in full, and the old accumulator never
influences a transfer. -/
def Obligations.NoCachingOrDeduplication : Prop :=
  (∀ s v, s.cfg.Legal → CanStart s → LinkOpen s → s.dstate = .ready →
    ∃ t u, exec (.writeCommand v) s = .next t ∧ exec (.writeCommand v) t = .next u ∧
      u.trace = s.trace ++ byteEvents s.cfg v false ++ byteEvents s.cfg v false) ∧
  (∀ s b, CanStart s → LinkOpen s → s.out = b →
    ∃ t, exec (.send b) s = .next t ∧ t.trace = s.trace ++ lineWrites b) ∧
  (∀ s a n rs, exec (.nibble n rs) { s with acc := a } = exec (.nibble n rs) s)

/-! ## Initialization -/

/-- R180 to R188: `initialize()` from `Uninitialized`, its whole effect; otherwise `REINIT` before any event. -/
def Obligations.InitializeEffect : Prop :=
  (∀ s, s.cfg.Legal → CanStart s → LinkOpen s → s.dstate = .uninitialized →
    exec .initialise s =
      .next { linkHolding (remapFrame s.cfg.wiring 0x01#8) s with
        dstate := .ready
        acc := 0x01#8
        trace := s.trace ++ initEvents s.cfg
        device := deviceAfter s.device (strobesOf (initEvents s.cfg)) }) ∧
  (∀ s, CanStart s → s.dstate ≠ .uninitialized → exec .initialise s = .next (faultEffect .reinit s))

/-- R189, which the spec marks derived from R180 to R188: the counts and lists of one complete `initialize()`: 24 sends (their
ControlBytes in order), 12 strobes, 21 delays.
The function set's low nibble is the parameter's, 0x8 for the default 0x28. -/
def Obligations.InitializeCountsAndLists : Prop :=
  ∀ s, s.cfg.Legal → CanStart s → LinkOpen s → s.dstate = .uninitialized →
    ∃ t es, exec .initialise s = .next t ∧ t.trace = s.trace ++ es ∧
      (lineWritesOf es).length = 624 ∧
      lineWritesOf es = lineWritesOf
        (([0x43#8, 0x03#8, 0x43#8, 0x03#8, 0x43#8, 0x03#8, 0x42#8, 0x02#8,
           0x42#8, 0x02#8, 0x40#8 ||| (s.cfg.initFunctionSet &&& 0x0F#8), s.cfg.initFunctionSet &&& 0x0F#8,
           0x40#8, 0x00#8, 0x4C#8, 0x0C#8, 0x40#8, 0x00#8, 0x46#8, 0x06#8, 0x40#8, 0x00#8, 0x41#8, 0x01#8] : List Byte).flatMap
          fun cb => lineWrites (remapFrame s.cfg.wiring cb)) ∧
      strobesOf es =
        [(false, false, 0x3#4), (false, false, 0x3#4), (false, false, 0x3#4), (false, false, 0x2#4),
         (false, false, 0x2#4), (false, false, lowNibble s.cfg.initFunctionSet),
         (false, false, 0x0#4), (false, false, 0xC#4), (false, false, 0x0#4), (false, false, 0x6#4),
         (false, false, 0x0#4), (false, false, 0x1#4)] ∧
      delaysOf es =
        [(.powerOn, s.cfg.tPowerOn),
         (.nibble, s.cfg.tNibble), (.reset1, s.cfg.tReset1), (.nibble, s.cfg.tNibble), (.reset2, s.cfg.tReset2),
         (.nibble, s.cfg.tNibble), (.reset3, s.cfg.tReset3), (.nibble, s.cfg.tNibble), (.fourBit, s.cfg.tFourBit),
         (.nibble, s.cfg.tNibble), (.nibble, s.cfg.tNibble), (.exec, s.cfg.tExecShort),
         (.nibble, s.cfg.tNibble), (.nibble, s.cfg.tNibble), (.exec, s.cfg.tExecShort),
         (.nibble, s.cfg.tNibble), (.nibble, s.cfg.tNibble), (.exec, s.cfg.tExecShort),
         (.nibble, s.cfg.tNibble), (.nibble, s.cfg.tNibble), (.exec, s.cfg.tExecLong)] ∧
      faultsOf es = []

/-- R23, R191, with the events of log entry 20: event by event, `Initializing` holds from the start of `initialize()` to its last event, and `Ready` after it. -/
def Obligations.InitializingThroughoutInitialize : Prop :=
  ∀ s, CanStart s → LinkOpen s → s.dstate = .uninitialized →
    (∀ k, k < eventCount s.cfg .initialise →
      (sequencerRun k (beginOperation .initialise s)).dstate = .initializing ∧
      (sequencerRun k (beginOperation .initialise s)).seq = .busy .initialise k) ∧
    (sequencerRun (eventCount s.cfg .initialise) (beginOperation .initialise s)).dstate = .ready ∧
    (sequencerRun (eventCount s.cfg .initialise) (beginOperation .initialise s)).seq = .idle ∧
    eventCount s.cfg .initialise = 645

/-- R247, which the spec marks derived: what `initialize()` emits is the same for every power-on `STAGE` and `OUT`; and under the
informative device model
(R67, a premise of the last clause) the device ends in `FourHi` from every power-on mode. -/
def Obligations.InitializeIndependentOfPowerOn : Prop :=
  ∀ (c : Config) (stage out : Byte) (mode : DeviceMode), c.Legal →
    ∃ t, exec .initialise (State.blockReset c stage out mode) = .next t ∧ t.trace = initEvents c ∧
      t.dstate = .ready ∧ t.device.mode = .fourHi

/-- R68, which the spec marks derived from R67, under the informative device model: three strobes of 0x3 leave `Eight` from every
mode, and 0x2 then leaves `FourHi`. -/
def Obligations.ThreeResetStrobesResynchronise : Prop :=
  ∀ d : Device,
    (deviceAfter d [(false, false, 0x3#4), (false, false, 0x3#4), (false, false, 0x3#4)]).mode = .eight ∧
    (deviceAfter d [(false, false, 0x3#4), (false, false, 0x3#4), (false, false, 0x3#4), (false, false, 0x2#4)]).mode =
      .fourHi

/-- R67: reception of `Strobe(rs, 0, n)` in each mode. The low half of the byte in `Eight` is some 4-bit value. -/
def Obligations.DeviceReception : Prop :=
  ∀ (d : Device) (rs : Level) (n : Nibble),
    (d.mode = .eight →
      (∃ low : Nibble, (deviceReceive rs false n d).executed = d.executed ++ [{ rs := rs, byte := n ++ low }]) ∧
      (deviceReceive rs false n d).mode =
        if rs = false ∧ n.extractLsb' 1 3 = 0b001#3 then (if n.getLsbD 0 = true then .eight else .fourHi) else .eight) ∧
    (d.mode = .fourHi → deviceReceive rs false n d = { d with mode := .fourLo n }) ∧
    (∀ h, d.mode = .fourLo h →
      deviceReceive rs false n d =
        { d with
          executed := d.executed ++ [{ rs := rs, byte := h ++ n }]
          mode := if rs = false ∧ h.extractLsb' 1 3 = 0b001#3 then (if h.getLsbD 0 = true then .eight else .fourHi)
            else .fourHi })

/-! ## Delay -/

/-- R200: `delay(kind, t)` appends its event and changes nothing else, for every t. -/
def Obligations.DelayEffect : Prop :=
  ∀ s kind t, CanStart s →
    exec (.delay kind t) s = .next { s with trace := s.trace ++ [.delay kind t] }

/-- R202, R246: if the build's durations cover the device's minima, every step of an upstream host keeps them in the trace. -/
def Obligations.UpstreamStepsRespectMinima : Prop :=
  ∀ min s t, UpstreamInv s → DurationsCover min s.cfg → MinimaRespected min s.trace → step s = .next t →
    MinimaRespected min t.trace

/-! ## Faults -/

/-- R214: fault entry in any state; afterwards no operation, and no step, of any kind. That they answer the stop
`stuckAfterFault` with the reason is the model's choice (log entry 12). -/
def Obligations.FaultEntryIsSticky : Prop :=
  (∀ r s, raise r s = { s with fault := some r, trace := s.trace ++ [.fault r], seq := .idle }) ∧
  (∀ s r i, s.fault = some r → exec i s = .fault (.stuckAfterFault r)) ∧
  (∀ s r, s.cfg.Legal → s.fault = some r → step s = .fault (.stuckAfterFault r))

/-- R210: the codes of the four reasons, which they determine; and each reason is raised by some operation from some state without
a fault (the state need not be one that a run reaches). -/
def Obligations.FaultReasonsAndCodes : Prop :=
  faultCode .notReady = 1 ∧ faultCode .reinit = 2 ∧ faultCode .partialLatch = 3 ∧ faultCode .unlatchedTransmit = 4 ∧
  (∀ r r', faultCode r = faultCode r' → r = r') ∧
  (∀ r, ∃ i s t, exec i s = .next t ∧ s.fault = none ∧ t.fault = some r)

/-- R12, R159 and log entry 13: an operation called while another one runs has no step. -/
def Obligations.OverlappingCallStops : Prop :=
  ∀ s i op k, s.fault = none → s.seq = .busy op k → exec i s = .fault .overlappingCall

/-! ## Reset and the invariants -/

/-- R240: the state after block reset, for every value of what the rule leaves unspecified. -/
def Obligations.BlockResetValues : Prop :=
  ∀ c stage out mode,
    (State.blockReset c stage out mode).dstate = .uninitialized ∧ (State.blockReset c stage out mode).acc = 0x00#8 ∧
    LinesLow (State.blockReset c stage out mode) ∧ (State.blockReset c stage out mode).stage = stage ∧
    (State.blockReset c stage out mode).out = out ∧ (State.blockReset c stage out mode).linkcnt = 0 ∧
    (State.blockReset c stage out mode).fault = none ∧ (State.blockReset c stage out mode).seq = .idle ∧
    (State.blockReset c stage out mode).trace = [] ∧ (State.blockReset c stage out mode).device.mode = mode

/-- The invariants hold after block reset, whatever a legal configuration, the unspecified values and the host's calls are. The
last clause is about the model's own `State.reset`, whose configuration, `STAGE`, `OUT` and device mode are its choice (log
entries 2, 5, 6). -/
def Obligations.InvariantsHoldAtReset : Prop :=
  (∀ c stage out mode calls, c.Legal → BlockInv { State.blockReset c stage out mode with calls := calls }) ∧
  (∀ c stage out mode calls, c.Legal → UpstreamHost calls →
    UpstreamInv { State.blockReset c stage out mode with calls := calls }) ∧
  BlockInv State.reset

/-- From every state that meets it, every step, of whatever operation, keeps the invariant between operations (R22, R23, R33,
R98, R120, R121, R124, R214). -/
def Obligations.StepKeepsBlockInv : Prop := ∀ s t, BlockInv s → step s = .next t → BlockInv t

/-- R213, R98: when the host is the only caller, whatever it calls, every step keeps it so that no byte ever waits, `PARTIAL_LATCH` and
`UNLATCHED_TRANSMIT` are never raised, and no strobe has RW = 1. -/
def Obligations.StepKeepsUpstreamInv : Prop := ∀ s t, UpstreamInv s → step s = .next t → UpstreamInv t

/-! ## Whole-machine rules -/

/-- R38, R69: the trace only grows, under every operation and every step. -/
def Obligations.TraceOnlyGrows : Prop :=
  (∀ i s t, exec i s = .next t → ∃ es, t.trace = s.trace ++ es) ∧ (∀ s t, step s = .next t → ∃ es, t.trace = s.trace ++ es)

/-- R31: no operation writes the configuration, and none touches the host's queue (log entry 3). -/
def Obligations.ConfigurationIsFixed : Prop :=
  (∀ i s t, exec i s = .next t → t.cfg = s.cfg ∧ t.calls = s.calls) ∧ (∀ s t, step s = .next t → t.cfg = s.cfg)

/-- R23: the only transitions of `DSTATE`, and only `initialize()` makes one. `Initializing` outlasts the operation only when a
fault ends it (log entry 16). -/
def Obligations.DStateTransitions : Prop :=
  ∀ i s t, exec i s = .next t →
    t.dstate = s.dstate ∨
    (i = .initialise ∧ s.dstate = .uninitialized ∧ (t.dstate = .ready ∨ (t.dstate = .initializing ∧ t.fault ≠ none)))

/-- R22, R125: `ACC` and `DSTATE` belong to DisplayController: the operations of the other components, and the delay, leave them
unchanged in every state; and `remap` and the delay leave the link and the shift register unchanged. -/
def Obligations.OwnershipOfState : Prop :=
  ∀ s t,
    (∀ b, exec (.transmit b) s = .next t → t.acc = s.acc ∧ t.dstate = s.dstate ∧ t.out = s.out) ∧
    (exec .latch s = .next t → t.acc = s.acc ∧ t.dstate = s.dstate ∧ t.stage = s.stage) ∧
    (∀ b, exec (.send b) s = .next t → t.acc = s.acc ∧ t.dstate = s.dstate) ∧
    (∀ cb, exec (.remap cb) s = .next t → t.acc = s.acc ∧ t.dstate = s.dstate ∧ t.line = s.line ∧ t.stage = s.stage ∧
      t.out = s.out ∧ t.linkcnt = s.linkcnt ∧ t.trace = s.trace) ∧
    (∀ k d, exec (.delay k d) s = .next t → t.acc = s.acc ∧ t.dstate = s.dstate ∧ t.line = s.line ∧ t.stage = s.stage ∧
      t.out = s.out ∧ t.linkcnt = s.linkcnt)

/-! ## The sequencer -/

/-- R10, R34, and log entry 11: the state after an operation is what the primitive events of its expansion leave, applied in order: for every
operation, in every state in which it can start, running the events one at a time from its start gives what `exec` gives. -/
def Obligations.SequencerRefinesExec : Prop :=
  ∀ i s, CanStart s → exec i s = .next (sequencerRun (eventCount s.cfg i) (beginOperation i s))

/-- R34 and log entry 20: each tick of a running operation is exactly one primitive event, and the index advances by exactly 1 until the last
event or a fault, when `SEQ` returns to `Idle`. -/
def Obligations.SequencerAdvancesByOneEvent : Prop :=
  ∀ s op i, s.seq = .busy op i → s.fault = none → i < eventCount s.cfg op →
    (∃ e es, (sequencerTick s).trace = s.trace ++ e :: es ∧
      ((∃ l b, e = .lineWrite l b) ∨ ∃ k d, e = .delay k d) ∧ lineWritesOf es = [] ∧ delaysOf es = []) ∧
    ((sequencerTick s).fault ≠ none → (sequencerTick s).seq = .idle) ∧
    ((sequencerTick s).fault = none → i + 1 < eventCount s.cfg op → (sequencerTick s).seq = .busy op (i + 1)) ∧
    ((sequencerTick s).fault = none → i + 1 = eventCount s.cfg op → (sequencerTick s).seq = .idle)
end

