-- ==== Sys2Proof/Laws/State.lean ====
section
/-! SUPPORT. One lemma for each field after each update that is a plain record update, so that no proof unfolds it. -/

namespace Sys2Proof.Machine

/-! Appending an event (R38). -/

@[simp] theorem emit_cfg (e : Event) (s : State) : (emit e s).cfg = s.cfg := rfl
@[simp] theorem emit_dstate (e : Event) (s : State) : (emit e s).dstate = s.dstate := rfl
@[simp] theorem emit_acc (e : Event) (s : State) : (emit e s).acc = s.acc := rfl
@[simp] theorem emit_line (e : Event) (s : State) : (emit e s).line = s.line := rfl
@[simp] theorem emit_stage (e : Event) (s : State) : (emit e s).stage = s.stage := rfl
@[simp] theorem emit_out (e : Event) (s : State) : (emit e s).out = s.out := rfl
@[simp] theorem emit_linkcnt (e : Event) (s : State) : (emit e s).linkcnt = s.linkcnt := rfl
@[simp] theorem emit_fault (e : Event) (s : State) : (emit e s).fault = s.fault := rfl
@[simp] theorem emit_seq (e : Event) (s : State) : (emit e s).seq = s.seq := rfl
@[simp] theorem emit_trace (e : Event) (s : State) : (emit e s).trace = s.trace ++ [e] := rfl
@[simp] theorem emit_device (e : Event) (s : State) : (emit e s).device = s.device := rfl
@[simp] theorem emit_calls (e : Event) (s : State) : (emit e s).calls = s.calls := rfl
@[simp] theorem emit_result (e : Event) (s : State) : (emit e s).result = s.result := rfl

/-! Fault entry (R214). -/

@[simp] theorem raise_cfg (r : FaultReason) (s : State) : (raise r s).cfg = s.cfg := rfl
@[simp] theorem raise_dstate (r : FaultReason) (s : State) : (raise r s).dstate = s.dstate := rfl
@[simp] theorem raise_acc (r : FaultReason) (s : State) : (raise r s).acc = s.acc := rfl
@[simp] theorem raise_line (r : FaultReason) (s : State) : (raise r s).line = s.line := rfl
@[simp] theorem raise_stage (r : FaultReason) (s : State) : (raise r s).stage = s.stage := rfl
@[simp] theorem raise_out (r : FaultReason) (s : State) : (raise r s).out = s.out := rfl
@[simp] theorem raise_linkcnt (r : FaultReason) (s : State) : (raise r s).linkcnt = s.linkcnt := rfl
@[simp] theorem raise_fault (r : FaultReason) (s : State) : (raise r s).fault = some r := rfl
@[simp] theorem raise_seq (r : FaultReason) (s : State) : (raise r s).seq = .idle := rfl
@[simp] theorem raise_trace (r : FaultReason) (s : State) : (raise r s).trace = s.trace ++ [.fault r] := rfl
@[simp] theorem raise_device (r : FaultReason) (s : State) : (raise r s).device = s.device := rfl
@[simp] theorem raise_calls (r : FaultReason) (s : State) : (raise r s).calls = s.calls := rfl
@[simp] theorem raise_result (r : FaultReason) (s : State) : (raise r s).result = s.result := rfl

/-! A delay (R200). -/

@[simp] theorem delayFor_cfg (k : DelayKind) (t : Nat) (s : State) : (delayFor k t s).cfg = s.cfg := rfl
@[simp] theorem delayFor_dstate (k : DelayKind) (t : Nat) (s : State) : (delayFor k t s).dstate = s.dstate := rfl
@[simp] theorem delayFor_acc (k : DelayKind) (t : Nat) (s : State) : (delayFor k t s).acc = s.acc := rfl
@[simp] theorem delayFor_line (k : DelayKind) (t : Nat) (s : State) : (delayFor k t s).line = s.line := rfl
@[simp] theorem delayFor_stage (k : DelayKind) (t : Nat) (s : State) : (delayFor k t s).stage = s.stage := rfl
@[simp] theorem delayFor_out (k : DelayKind) (t : Nat) (s : State) : (delayFor k t s).out = s.out := rfl
@[simp] theorem delayFor_linkcnt (k : DelayKind) (t : Nat) (s : State) : (delayFor k t s).linkcnt = s.linkcnt := rfl
@[simp] theorem delayFor_fault (k : DelayKind) (t : Nat) (s : State) : (delayFor k t s).fault = s.fault := rfl
@[simp] theorem delayFor_seq (k : DelayKind) (t : Nat) (s : State) : (delayFor k t s).seq = s.seq := rfl
@[simp] theorem delayFor_trace (k : DelayKind) (t : Nat) (s : State) : (delayFor k t s).trace = s.trace ++ [.delay k t] := rfl
@[simp] theorem delayFor_device (k : DelayKind) (t : Nat) (s : State) : (delayFor k t s).device = s.device := rfl
@[simp] theorem delayFor_calls (k : DelayKind) (t : Nat) (s : State) : (delayFor k t s).calls = s.calls := rfl
@[simp] theorem delayFor_result (k : DelayKind) (t : Nat) (s : State) : (delayFor k t s).result = s.result := rfl

/-! A CLK rising edge (R28). -/

@[simp] theorem clkRise_cfg (s : State) : (clkRise s).cfg = s.cfg := rfl
@[simp] theorem clkRise_dstate (s : State) : (clkRise s).dstate = s.dstate := rfl
@[simp] theorem clkRise_acc (s : State) : (clkRise s).acc = s.acc := rfl
@[simp] theorem clkRise_line (s : State) : (clkRise s).line = s.line := rfl
@[simp] theorem clkRise_stage (s : State) : (clkRise s).stage = shiftIn s.line.data s.stage := rfl
@[simp] theorem clkRise_out (s : State) : (clkRise s).out = s.out := rfl
@[simp] theorem clkRise_linkcnt (s : State) : (clkRise s).linkcnt = countEdge s.linkcnt := rfl
@[simp] theorem clkRise_fault (s : State) : (clkRise s).fault = s.fault := rfl
@[simp] theorem clkRise_seq (s : State) : (clkRise s).seq = s.seq := rfl
@[simp] theorem clkRise_trace (s : State) : (clkRise s).trace = s.trace := rfl
@[simp] theorem clkRise_device (s : State) : (clkRise s).device = s.device := rfl
@[simp] theorem clkRise_calls (s : State) : (clkRise s).calls = s.calls := rfl
@[simp] theorem clkRise_result (s : State) : (clkRise s).result = s.result := rfl

/-! The link after a send (R124). -/

@[simp] theorem linkHolding_cfg (f : Byte) (s : State) : (linkHolding f s).cfg = s.cfg := rfl
@[simp] theorem linkHolding_dstate (f : Byte) (s : State) : (linkHolding f s).dstate = s.dstate := rfl
@[simp] theorem linkHolding_acc (f : Byte) (s : State) : (linkHolding f s).acc = s.acc := rfl
@[simp] theorem linkHolding_line (f : Byte) (s : State) : (linkHolding f s).line = { data := bitAt f 7, clk := false, latch := true } := rfl
@[simp] theorem linkHolding_stage (f : Byte) (s : State) : (linkHolding f s).stage = f := rfl
@[simp] theorem linkHolding_out (f : Byte) (s : State) : (linkHolding f s).out = f := rfl
@[simp] theorem linkHolding_linkcnt (f : Byte) (s : State) : (linkHolding f s).linkcnt = 0 := rfl
@[simp] theorem linkHolding_fault (f : Byte) (s : State) : (linkHolding f s).fault = s.fault := rfl
@[simp] theorem linkHolding_seq (f : Byte) (s : State) : (linkHolding f s).seq = s.seq := rfl
@[simp] theorem linkHolding_trace (f : Byte) (s : State) : (linkHolding f s).trace = s.trace := rfl
@[simp] theorem linkHolding_device (f : Byte) (s : State) : (linkHolding f s).device = s.device := rfl
@[simp] theorem linkHolding_calls (f : Byte) (s : State) : (linkHolding f s).calls = s.calls := rfl
@[simp] theorem linkHolding_result (f : Byte) (s : State) : (linkHolding f s).result = s.result := rfl

/-! The levels of the lines (R26). -/

@[simp] theorem Lines.get_set (x : Lines) (l : Line) (b : Level) : (x.set l b).get l = b := by cases l <;> rfl
theorem Lines.get_set_ne (x : Lines) (l m : Line) (b : Level) (h : m ≠ l) : (x.set l b).get m = x.get m := by
  cases l <;> cases m <;> first | rfl | exact absurd rfl h
@[simp] theorem Lines.get_data (x : Lines) : x.get .data = x.data := rfl
@[simp] theorem Lines.get_clk (x : Lines) : x.get .clk = x.clk := rfl
@[simp] theorem Lines.get_latch (x : Lines) : x.get .latch = x.latch := rfl

/-! Block reset (R240). -/

section Reset
variable (c : Config) (stage out : Byte) (mode : DeviceMode)
@[simp] theorem blockReset_cfg : (State.blockReset c stage out mode).cfg = c := rfl
@[simp] theorem blockReset_dstate : (State.blockReset c stage out mode).dstate = .uninitialized := rfl
@[simp] theorem blockReset_acc : (State.blockReset c stage out mode).acc = 0x00#8 := rfl
@[simp] theorem blockReset_line : (State.blockReset c stage out mode).line = { data := false, clk := false, latch := false } := rfl
@[simp] theorem blockReset_stage : (State.blockReset c stage out mode).stage = stage := rfl
@[simp] theorem blockReset_out : (State.blockReset c stage out mode).out = out := rfl
@[simp] theorem blockReset_linkcnt : (State.blockReset c stage out mode).linkcnt = 0 := rfl
@[simp] theorem blockReset_fault : (State.blockReset c stage out mode).fault = none := rfl
@[simp] theorem blockReset_seq : (State.blockReset c stage out mode).seq = .idle := rfl
@[simp] theorem blockReset_trace : (State.blockReset c stage out mode).trace = [] := rfl
@[simp] theorem blockReset_device : (State.blockReset c stage out mode).device = { mode := mode, executed := [], draws := 0 } := rfl
@[simp] theorem blockReset_calls : (State.blockReset c stage out mode).calls = [] := rfl
@[simp] theorem blockReset_result : (State.blockReset c stage out mode).result = none := rfl
end Reset

end Sys2Proof.Machine
end

