-- ==== Sys2Proof/Laws/Ops.lean ====
section
/-! SUPPORT. What each shared operation can do, said once: the check functions, the whole-operation frame, the line writes, the
device edge, and the three SerialLink bodies. -/

namespace Sys2Proof.Machine

/-! Sequencing (R214). -/

theorem andThen_of_noFault {s : State} (f : State → State) (h : s.fault = none) : andThen s f = f s := by
  simp [andThen, h]

theorem andThen_of_fault {s : State} (f : State → State) {r : FaultReason} (h : s.fault = some r) : andThen s f = s := by
  simp [andThen, h]

/-- A composition takes its second part or ends with the first. -/
theorem andThen_cases (s : State) (f : State → State) :
    (s.fault = none ∧ andThen s f = f s) ∨ (∃ r, s.fault = some r ∧ andThen s f = s) := by
  cases h : s.fault with
  | none => exact .inl ⟨rfl, andThen_of_noFault f h⟩
  | some r => exact .inr ⟨r, rfl, andThen_of_fault f h⟩

/-! The whole-operation frame (R12, R214). -/

theorem runOperation_of_canStart {s : State} (body : State → State) (h : CanStart s) :
    runOperation body s = .next (body s) := by
  simp [runOperation, h.1, h.2]

theorem runOperation_of_fault {s : State} (body : State → State) {r : FaultReason} (h : s.fault = some r) :
    runOperation body s = .fault (.stuckAfterFault r) := by
  simp [runOperation, h]

theorem runOperation_of_busy {s : State} (body : State → State) {op : Instr} {i : Nat} (hf : s.fault = none)
    (h : s.seq = .busy op i) : runOperation body s = .fault .overlappingCall := by
  simp [runOperation, hf, h]

/-- An operation answers a next state exactly when it can start, and then the one its body gives. -/
theorem runOperation_next {s t : State} {body : State → State} (h : runOperation body s = .next t) :
    CanStart s ∧ t = body s := by
  unfold runOperation at h
  split at h
  · cases h
  · split at h
    · cases h
    · injection h with h
      exact ⟨⟨‹_›, ‹_›⟩, h.symm⟩

/-! The entry checks (R210). -/

theorem requireReady_pos {s : State} (body : State → State) (h : s.dstate = .ready) : requireReady body s = body s := by
  simp [requireReady, h]

theorem requireReady_neg {s : State} (body : State → State) (h : s.dstate ≠ .ready) :
    requireReady body s = raise .notReady s := by
  simp [requireReady, h]

theorem requireUninitialized_pos {s : State} (body : State → State) (h : s.dstate = .uninitialized) :
    requireUninitialized body s = body s := by
  simp [requireUninitialized, h]

theorem requireUninitialized_neg {s : State} (body : State → State) (h : s.dstate ≠ .uninitialized) :
    requireUninitialized body s = raise .reinit s := by
  simp [requireUninitialized, h]

theorem requireLatched_pos {s : State} (body : State → State) (h : s.linkcnt ≠ 8) : requireLatched body s = body s := by
  simp [requireLatched, h]

theorem requireLatched_neg {s : State} (body : State → State) (h : s.linkcnt = 8) :
    requireLatched body s = raise .unlatchedTransmit s := by
  simp [requireLatched, h]

theorem requireComplete_pos {s : State} (body : State → State) (h : s.linkcnt = 8) : requireComplete body s = body s := by
  simp [requireComplete, h]

theorem requireComplete_neg {s : State} (body : State → State) (h : s.linkcnt ≠ 8) :
    requireComplete body s = raise .partialLatch s := by
  simp [requireComplete, h]

/-! The device edge and the line writes (R28 to R30, R62). -/

/-- The device edge records the strobe, if there is one, and gives it to the device; it changes nothing else. -/
theorem deviceEdge_eq (old new : Byte) (s : State) :
    deviceEdge old new s =
      { s with
        trace := s.trace ++ strobeEvents s.cfg.wiring old new
        device := deviceAfter s.device (strobesOf (strobeEvents s.cfg.wiring old new)) } := by
  unfold deviceEdge strobeEvents
  by_cases h : bitAt old s.cfg.wiring.en = true ∧ bitAt new s.cfg.wiring.en = false
  · simp only [if_pos h]
    rfl
  · simp only [if_neg h]
    simp [strobesOf, deviceAfter]

/-- A LATCH rising edge (R29). -/
theorem latchRise_eq (s : State) :
    latchRise s =
      { s with
        out := s.stage
        linkcnt := 0
        trace := s.trace ++ strobeEvents s.cfg.wiring s.out s.stage
        device := deviceAfter s.device (strobesOf (strobeEvents s.cfg.wiring s.out s.stage)) } := by
  simp [latchRise, deviceEdge_eq]

theorem setLine_data (b : Level) (s : State) :
    setLine .data b s = { emit (.lineWrite .data b) s with line := { s.line with data := b } } := by
  simp [setLine, Lines.set]

theorem setLine_clk_low (s : State) :
    setLine .clk false s = { emit (.lineWrite .clk false) s with line := { s.line with clk := false } } := by
  cases h : s.line.clk <;> simp [setLine, Lines.set, h]

theorem setLine_clk_rise {s : State} (h : s.line.clk = false) :
    setLine .clk true s = clkRise { emit (.lineWrite .clk true) s with line := { s.line with clk := true } } := by
  simp [setLine, Lines.set, h]

theorem setLine_clk_held {s : State} (h : s.line.clk = true) :
    setLine .clk true s = { emit (.lineWrite .clk true) s with line := { s.line with clk := true } } := by
  simp [setLine, Lines.set, h]

theorem setLine_latch_low (s : State) :
    setLine .latch false s = { emit (.lineWrite .latch false) s with line := { s.line with latch := false } } := by
  cases h : s.line.latch <;> simp [setLine, Lines.set, h]

theorem setLine_latch_rise {s : State} (h : s.line.latch = false) :
    setLine .latch true s = latchRise { emit (.lineWrite .latch true) s with line := { s.line with latch := true } } := by
  simp [setLine, Lines.set, h]

theorem setLine_latch_held {s : State} (h : s.line.latch = true) :
    setLine .latch true s = { emit (.lineWrite .latch true) s with line := { s.line with latch := true } } := by
  simp [setLine, Lines.set, h]

/-! Shifting (R28). -/

theorem shiftIn_getLsbD (d : Level) (v : Byte) (k : Nat) :
    (shiftIn d v).getLsbD k = if k = 7 then d else v.getLsbD (k + 1) := by
  simp only [shiftIn, BitVec.getLsbD_or, BitVec.getLsbD_append, BitVec.getLsbD_ushiftRight, BitVec.getLsbD_ofBool,
    BitVec.getLsbD_zero]
  by_cases h7 : k = 7
  · subst h7
    simp
  · by_cases h : k < 7
    · simp [h7, h, Nat.add_comm]
    · have h0 : ¬ k - 7 = 0 := by omega
      have hge : v.getLsbD (1 + k) = false := BitVec.getLsbD_of_ge _ _ (by omega)
      simp [h7, h, h0, hge, Nat.add_comm k 1]

/-- Eight edges that present the bits of `b`, bit 0 first, leave `b`, whatever was there before (R28). -/
theorem shiftIn_bitsOf (b v : Byte) : (bitsOf b).foldl (fun v d => shiftIn d v) v = b := by
  apply BitVec.eq_of_getLsbD_eq
  intro k hk
  have hk : k = 0 ∨ k = 1 ∨ k = 2 ∨ k = 3 ∨ k = 4 ∨ k = 5 ∨ k = 6 ∨ k = 7 := by omega
  rcases hk with rfl | rfl | rfl | rfl | rfl | rfl | rfl | rfl <;>
    simp only [bitsOf, List.foldl, shiftIn_getLsbD] <;> rfl

/-- One bit cell with CLK low before it: one rising edge, which samples `b`. -/
theorem bitCell_eq {s : State} (b : Level) (h : s.line.clk = false) :
    bitCell b s =
      { s with
        stage := shiftIn b s.stage
        linkcnt := countEdge s.linkcnt
        line := { s.line with data := b, clk := false }
        trace := s.trace ++ cellEvents [b] } := by
  rw [bitCell, setLine_data, setLine_clk_rise (by simpa using h), setLine_clk_low]
  simp [clkRise, emit, cellEvents]

/-- The bit cells of a list of bits, with CLK low before them. -/
theorem shiftOut_eq (bs : List Level) (s : State) (h : s.line.clk = false) :
    shiftOut bs s =
      { s with
        stage := bs.foldl (fun v d => shiftIn d v) s.stage
        linkcnt := bs.foldl (fun c _ => countEdge c) s.linkcnt
        line := { s.line with data := bs.foldl (fun _ d => d) s.line.data, clk := false }
        trace := s.trace ++ cellEvents bs } := by
  induction bs generalizing s with
  | nil =>
    have hl : ({ s.line with data := s.line.data, clk := false } : Lines) = s.line := by rw [← h]
    simp only [shiftOut, List.foldl, cellEvents, List.flatMap_nil, List.append_nil, hl]
  | cons b bs ih =>
    rw [shiftOut, bitCell_eq b h, ih _ rfl]
    simp [cellEvents]

/-- Eight edges count to 8, from any count (R27, R28). -/
theorem countEdge_eight (b : Byte) (c : Fin 9) : (bitsOf b).foldl (fun c _ => countEdge c) c = 8 := by
  revert c
  simp only [bitsOf, List.foldl]
  decide

/-- `transmit(b)` when no byte waits and CLK is low (R120). -/
theorem transmit_eq {s : State} (b : Byte) (h : LinkOpen s) :
    transmit b s =
      { s with
        stage := b
        linkcnt := 8
        line := { s.line with data := bitAt b 7, clk := false }
        trace := s.trace ++ cellEvents (bitsOf b) } := by
  rw [transmit, requireLatched_pos _ h.1, shiftOut_eq _ _ h.2, shiftIn_bitsOf, countEdge_eight]
  rfl

/-- `transmit(b)` over an unlatched byte (R121). -/
theorem transmit_unlatched {s : State} (b : Byte) (h : s.linkcnt = 8) : transmit b s = raise .unlatchedTransmit s :=
  requireLatched_neg _ h

theorem latchPulse_eq (s : State) :
    latchPulse s =
      { s with
        out := s.stage
        linkcnt := 0
        line := { s.line with latch := true }
        trace := s.trace ++ pulseEvents ++ strobeEvents s.cfg.wiring s.out s.stage
        device := deviceAfter s.device (strobesOf (strobeEvents s.cfg.wiring s.out s.stage)) } := by
  rw [latchPulse, setLine_latch_low, setLine_latch_rise rfl, latchRise_eq]
  simp [emit, pulseEvents]

/-- `latch()` with a complete byte waiting (R123). -/
theorem latch_eq {s : State} (h : s.linkcnt = 8) : latch s = latchPulse s := requireComplete_pos _ h

/-- `latch()` without one (R122). -/
theorem latch_partial {s : State} (h : s.linkcnt ≠ 8) : latch s = raise .partialLatch s := requireComplete_neg _ h

/-- `send(b)` when no byte waits, CLK is low and no fault is set (R124). -/
theorem send_eq {s : State} (b : Byte) (hf : s.fault = none) (h : LinkOpen s) :
    send b s =
      { linkHolding b s with
        trace := s.trace ++ lineWrites b ++ strobeEvents s.cfg.wiring s.out b
        device := deviceAfter s.device (strobesOf (strobeEvents s.cfg.wiring s.out b)) } := by
  rw [send, transmit_eq b h, andThen_of_noFault _ (by simpa using hf), latch_eq rfl, latchPulse_eq]
  simp [linkHolding, lineWrites]

/-- `send(b)` over an unlatched byte (R121). -/
theorem send_unlatched {s : State} (b : Byte) (h : s.linkcnt = 8) : send b s = raise .unlatchedTransmit s := by
  rw [send, transmit_unlatched b h, andThen_of_fault _ (raise_fault _ s)]

/-! The configuration check (R142, R217). -/

theorem linesUsed_getLsbD (w : Wiring) (k : Fin 8) : w.linesUsed.getLsbD k = true ↔ ∃ i, w.line i = k := by
  have bit (j : Fin 8) : (1#8 <<< j.val).getLsbD k.val = true ↔ j = k := by
    revert j k
    decide
  simp only [Wiring.linesUsed, BitVec.getLsbD_or, Bool.or_eq_true, bit]
  constructor
  · rintro (((((((h | h) | h) | h) | h) | h) | h) | h)
    · exact ⟨0, h⟩
    · exact ⟨1, h⟩
    · exact ⟨2, h⟩
    · exact ⟨3, h⟩
    · exact ⟨4, h⟩
    · exact ⟨5, h⟩
    · exact ⟨6, h⟩
    · exact ⟨7, h⟩
  · rintro ⟨i, h⟩
    fin_cases i <;> simp only [Wiring.line] at h <;> simp [h]

/-- A permutation is injective, so it reaches every line. -/
theorem line_surjective {w : Wiring} (h : w.IsPermutation) (k : Fin 8) : ∃ i, w.line i = k :=
  Finite.surjective_of_injective (fun i j hij => by_contra fun hne => h i j hne hij) k

theorem isPermutation_iff (w : Wiring) : w.isPermutation = true ↔ w.IsPermutation := by
  unfold Wiring.isPermutation
  rw [beq_iff_eq]
  constructor
  · intro h i j hne hij
    have surj : Function.Surjective w.line := fun k => by
      rw [← linesUsed_getLsbD, h]
      revert k
      decide
    exact hne (Finite.injective_iff_surjective.2 surj hij)
  · intro h
    apply BitVec.eq_of_getLsbD_eq
    intro k hk
    have hall : (0xFF#8).getLsbD k = true := by
      revert k
      decide
    rw [hall, (linesUsed_getLsbD w ⟨k, hk⟩).2 (line_surjective h _)]

theorem Config.defect_eq_none_iff (c : Config) : c.defect = none ↔ c.Legal := by
  unfold Config.defect Config.Legal
  rw [← isPermutation_iff]
  by_cases h : IsFourBitFunctionSet c.initFunctionSet
  · rw [if_pos h]
    exact ⟨fun hn => ⟨by cases hp : c.wiring.isPermutation <;> simp [hp] at hn ⊢, h⟩, fun hl => by simp [hl.1]⟩
  · rw [if_neg h]
    exact ⟨fun hn => by cases hp : c.wiring.isPermutation <;> simp [hp] at hn, fun hl => absurd hl.2 h⟩

end Sys2Proof.Machine
end

