-- ==== Sys2Proof/Laws/PerInstr.lean ====
section
/-! SUPPORT. Per-instruction facts about the syntax: the shape of each operation's record. -/

namespace Sys2Proof.Laws.Record

/-- The record of an operation is well formed: it begins with one of the eleven selectors (SPARE = 1, so no emitted
ControlByte), or it is one ControlByte that the block may emit (R98). -/
def Statement (i : Instr) : Prop :=
  i.wellFormed = true ∧
    ∃ b rest, encode i = b :: rest ∧
      ((b.getLsbD 7 = true ∧ b.toNat ≤ 0x8A) ∨ (IsLegalControlByte b ∧ rest = []))

theorem initialise : Statement .initialise := ⟨rfl, _, _, rfl, .inl (by decide)⟩

theorem writeCommand (v : Byte) : Statement (.writeCommand v) := ⟨rfl, _, _, rfl, .inl (by decide)⟩

theorem writeData (v : Byte) : Statement (.writeData v) := ⟨rfl, _, _, rfl, .inl (by decide)⟩

theorem writeString (codes : List Byte) : Statement (.writeString codes) := ⟨rfl, _, _, rfl, .inl (by decide)⟩

theorem transmit (b : Byte) : Statement (.transmit b) := ⟨rfl, _, _, rfl, .inl (by decide)⟩

theorem latch : Statement .latch := ⟨rfl, _, _, rfl, .inl (by decide)⟩

theorem send (b : Byte) : Statement (.send b) := ⟨rfl, _, _, rfl, .inl (by decide)⟩

theorem remap (cb : Byte) : Statement (.remap cb) := ⟨rfl, _, _, rfl, .inl (by decide)⟩

theorem nibble (n : Nibble) (rs : Level) : Statement (.nibble n rs) := ⟨rfl, _, _, rfl, .inl (by decide)⟩

theorem writeByte (v : Byte) (rs : Level) : Statement (.writeByte v rs) := ⟨rfl, _, _, rfl, .inl (by decide)⟩

theorem delay (kind : DelayKind) (t : Nat) : Statement (.delay kind t) := ⟨rfl, _, _, rfl, .inl (by decide)⟩

/-- Every ControlByte with EN = 1 that the table's row writes is one that the block may emit. -/
theorem cbEn1_legal (rs : Level) (n : Nibble) : IsLegalControlByte (0x40#8 ||| rsNibbleByte rs n) := by
  revert rs n
  decide

/-- Every ControlByte with EN = 0 that the table's row writes is one that the block may emit. -/
theorem cbEn0_legal (rs : Level) (n : Nibble) : IsLegalControlByte (rsNibbleByte rs n) := by
  revert rs n
  decide

theorem cbEn1 (rs : Level) (n : Nibble) : Statement (.cbEn1 rs n) := ⟨rfl, _, _, rfl, .inr ⟨cbEn1_legal rs n, rfl⟩⟩

theorem cbEn0 (rs : Level) (n : Nibble) : Statement (.cbEn0 rs n) := ⟨rfl, _, _, rfl, .inr ⟨cbEn0_legal rs n, rfl⟩⟩

end Sys2Proof.Laws.Record
end

