-- ==== Sys2Proof/Laws/Step.lean ====
section
/-! SUPPORT. What one step can do, said once: who may make a call, and everything a step with a next state has done. -/

namespace Sys2Proof.Machine

@[simp] theorem mayCall_host (op : Instr) : mayCall .host op = op.isUpstream := rfl

@[simp] theorem mayCall_inside (op : Instr) : mayCall .inside op = true := rfl

/-- The three ways to a next state: the next event of a running operation, no call to run, or the oldest call's operation, which
its caller may make. -/
theorem step_next {s t : State} (h : step s = .next t) :
    s.cfg.Legal ∧ s.fault = none ∧
      ((∃ op i, s.seq = .busy op i ∧ t = sequencerTick s) ∨
        (s.seq = .idle ∧ s.calls = [] ∧ t = s) ∨
        (s.seq = .idle ∧ ∃ call rest op, s.calls = call :: rest ∧ decode call.record = .ok op ∧
          mayCall call.caller op = true ∧ exec op { s with calls := rest } = .next t)) := by
  unfold step at h
  split at h
  · cases h
  · rename_i hd
    split at h
    · cases h
    · rename_i hf
      refine ⟨(Config.defect_eq_none_iff _).mp hd, hf, ?_⟩
      split at h
      · rename_i op i hs
        injection h with h
        exact .inl ⟨op, i, hs, h.symm⟩
      · rename_i hs
        split at h
        · rename_i hc
          injection h with h
          exact .inr (.inl ⟨hs, hc, h.symm⟩)
        · rename_i call rest hc
          split at h
          · cases h
          · rename_i op hdec
            split at h
            · rename_i hm
              exact .inr (.inr ⟨hs, call, rest, op, hc, hdec, hm, h⟩)
            · cases h

end Sys2Proof.Machine
end

