-- ==== Sys2Proof/Tests/Slice0.lean ====
section
/-! SUPPORT. The model's own tests: the vectors V1 to V70 of 95_test_vectors.md (each test names its vector), the checks that
refuse ill-formed terms, the decoding of one record per operation written out bit by bit, and for every statement with
hypotheses a witness that meets them. -/

namespace Sys2Proof.Tests

open Sys2Proof Sys2Proof.Machine

/-! ## Helpers -/

/-- `WIRING_B` of the conventions of 95_test_vectors.md: the nibbles swapped. -/
def wiringB : Wiring := ⟨4, 5, 6, 7, 0, 1, 2, 3⟩

/-- `WIRING_R`: a rotate left by one. -/
def wiringR : Wiring := ⟨1, 2, 3, 4, 5, 6, 7, 0⟩

/-- The table of V26, which is no permutation. -/
def wiringBad : Wiring := ⟨0, 0, 2, 3, 4, 5, 6, 7⟩

/-- The reset state with one wiring. -/
def wiredReset (w : Wiring) : State := { State.reset with cfg := { State.reset.cfg with wiring := w } }

/-- The reset state in `Ready`. -/
def readyState : State := { State.reset with dstate := .ready }

/-- The state of V4: a complete byte waits for its latch. -/
def waiting : State :=
  { State.reset with stage := 0x14#8, out := 0x54#8, linkcnt := 8, line := { data := false, clk := false, latch := true } }

/-- A state with a fault set. -/
def faulted : State := { State.reset with fault := some .reinit, trace := [.fault .reinit] }

/-- A state in which a delay is about to run. -/
def busyState : State := { State.reset with seq := .busy (.delay .exec 5) 0 }

/-- A call of the host's. -/
def hostCall (record : List Byte) : Call := { caller := .host, record := record }

/-- A call from inside the block. -/
def insideCall (record : List Byte) : Call := { caller := .inside, record := record }

/-- The reset state with calls of the host's. -/
def hosted (records : List (List Byte)) : State := { State.reset with calls := records.map hostCall }

/-- One field, or several, of the next state. -/
def seen {α : Type} (o : Host.Outcome State Fault Refusal) (look : State → α) : Option α :=
  match o with
  | .next t => some (look t)
  | .fault _ => none
  | .refused _ => none

/-- The block's part of the state that the vectors name at the end of an operation. -/
def ends (s : State) : Byte × Byte × Byte × Nat × Lines := (s.acc, s.stage, s.out, s.linkcnt.val, s.line)

/-! ## The checks refuse ill-formed terms -/

/-- V26. -/
theorem test_wellformed_refuses_wiring :
    ({ Config.informative with wiring := wiringBad } : Config).defect = some .wiringNotPermutation := by
  decide

/-- R184: DL = 1. -/
theorem test_wellformed_refuses_function_set :
    ({ Config.informative with initFunctionSet := 0x38#8 } : Config).defect = some .functionSetNotFourBit := by
  decide

theorem test_wellformed_accepts :
    Config.informative.defect = none ∧ (wiredReset wiringB).cfg.defect = none ∧ (wiredReset wiringR).cfg.defect = none := by
  decide

/-- R98: RW = 1 and SPARE = 1 are no ControlBytes of the block. -/
theorem test_wellformed_refuses_control_byte :
    ¬ IsLegalControlByte 0x20#8 ∧ ¬ IsLegalControlByte 0x80#8 ∧ IsLegalControlByte 0x5F#8 := by
  decide

theorem test_step_refuses_configuration :
    step (wiredReset wiringBad) = .refused (.illegalConfiguration .wiringNotPermutation) := rfl

theorem test_decode_refuses :
    decode [] = .error .emptyRecord ∧ decode [0x74#8] = .error (.illegalControlByte 0x74#8) ∧
    decode [0x8B#8] = .error (.unknownOperation 0x8B#8) ∧ decode [0x81#8] = .error (.badOperands 0x81#8) ∧
    decode [0x88#8, 0x20#8] = .error (.badOperands 0x88#8) ∧ decode [0x8A#8, 0x07#8] = .error (.badOperands 0x8A#8) ∧
    decode [0x54#8, 0x00#8] = .error (.badOperands 0x54#8) :=
  ⟨rfl, rfl, rfl, rfl, rfl, rfl, rfl⟩

/-! ## Decoding: one record per operation, bit by bit -/

theorem test_decode_cbEn1 : decode [0b01010100#8] = .ok (.cbEn1 true 0x4#4) := rfl

theorem test_decode_cbEn0 : decode [0b00000011#8] = .ok (.cbEn0 false 0x3#4) := rfl

theorem test_decode_initialise : decode [0b10000000#8] = .ok .initialise := rfl

theorem test_decode_writeCommand : decode [0b10000001#8, 0b11000000#8] = .ok (.writeCommand 0xC0#8) := rfl

theorem test_decode_writeData : decode [0b10000010#8, 0b00110000#8] = .ok (.writeData 0x30#8) := rfl

theorem test_decode_writeString : decode [0b10000011#8, 0b01001000#8, 0b01001001#8] = .ok (.writeString [0x48#8, 0x49#8]) := rfl

theorem test_decode_transmit : decode [0b10000100#8, 0b01010100#8] = .ok (.transmit 0x54#8) := rfl

theorem test_decode_latch : decode [0b10000101#8] = .ok .latch := rfl

theorem test_decode_send : decode [0b10000110#8, 0b01000011#8] = .ok (.send 0x43#8) := rfl

theorem test_decode_remap : decode [0b10000111#8, 0b01010100#8] = .ok (.remap 0x54#8) := rfl

theorem test_decode_nibble : decode [0b10001000#8, 0b00010100#8] = .ok (.nibble 0x4#4 true) := rfl

theorem test_decode_writeByte : decode [0b10001001#8, 0b00110011#8, 0b00000000#8] = .ok (.writeByte 0x33#8 false) := rfl

theorem test_decode_delay : decode [0b10001010#8, 0b00000110#8, 0b11110000#8, 0b00000101#8] = .ok (.delay .exec 1520) := rfl

/-- The table's two rows with bits of their own. -/
theorem test_table_words :
    decodeTableWord 8 0x54 = some (.cbEn1 true 0x4#4) ∧ decodeTableWord 8 0x1F = some (.cbEn0 true 0xF#4) := ⟨rfl, rfl⟩

/-- The frame of V5, given as a word of the table: it runs as the first call after reset. -/
theorem test_first_step :
    seen (step (State.reset.withFetchWord 8 0x43)) (fun t => (t.acc, t.out, t.calls)) = some (0x43#8, 0x43#8, []) := by
  decide +kernel

/-! ## Encodings (V30, V37) -/

/-- V30. -/
theorem test_control_byte :
    controlByte 0x4#4 true true = 0x54#8 ∧ controlByte 0x4#4 true false = 0x14#8 ∧ controlByte 0x3#4 false true = 0x43#8 ∧
    controlByte 0xF#4 true false = 0x1F#8 ∧ controlByte 0x0#4 true true = 0x50#8 := by
  decide

/-- V37. -/
theorem test_exec_delay :
    [0x00#8, 0x01#8, 0x02#8, 0x03#8, 0x04#8, 0x28#8, 0x81#8].map (execDelay Config.informative false) =
      [37, 1520, 1520, 1520, 37, 37, 37] ∧
    [0x00#8, 0x01#8, 0xFF#8].map (execDelay Config.informative true) = [41, 41, 41] := by
  decide

/-! ## PinRemapper (V21 to V25, V27) -/

/-- V21, V22. -/
theorem test_remap_tables :
    [0x54#8, 0x58#8, 0x43#8, 0x01#8, 0x80#8, 0x81#8, 0x40#8].map (remapFrame wiringB) =
      [0x45#8, 0x85#8, 0x34#8, 0x10#8, 0x08#8, 0x18#8, 0x04#8] ∧
    [0x54#8, 0x59#8, 0x43#8, 0x01#8, 0x80#8, 0x81#8, 0x40#8].map (remapFrame wiringR) =
      [0xA8#8, 0xB2#8, 0x86#8, 0x02#8, 0x01#8, 0x03#8, 0x80#8] := by
  decide

/-- V24. -/
theorem test_unremap :
    [0xA8#8, 0x01#8, 0x03#8].map (unremapFrame wiringR) = [0x54#8, 0x80#8, 0x81#8] ∧ remapFrame wiringR 0xA8#8 = 0x51#8 := by
  decide

/-- V21 as an operation. -/
theorem test_remap :
    seen (exec (.remap 0x54#8) (wiredReset wiringB)) (fun t => (t.result, t.trace, t.acc)) = some (some 0x45#8, [], 0x00#8) := by
  decide

/-- V27: the levels that the device sees. -/
theorem test_device_lines :
    deviceNibble wiringR 0x28#8 = 0x4#4 ∧ bitAt 0x28#8 wiringR.rs = true ∧ bitAt 0x28#8 wiringR.en = false := by
  decide

/-! ## SerialLink (V1 to V11) -/

/-- V1: the stages and the count after each CLK rise, read at events 2, 5, 8, … of the transmit. -/
theorem test_transmit_stages :
    [2, 5, 8, 11, 14, 17, 20, 23].map (fun k => (sequencerRun k (beginOperation (.transmit 0x54#8) State.reset)).stage) =
      [0x00#8, 0x00#8, 0x80#8, 0x40#8, 0xA0#8, 0x50#8, 0xA8#8, 0x54#8] := by
  decide +kernel

/-- V2, V3: from `STAGE = 0xFF`, and the last DATA level. -/
theorem test_transmit :
    seen (exec (.transmit 0x54#8) { State.reset with stage := 0xFF#8 }) (fun t => (ends t, t.trace.length)) =
      some ((0x00#8, 0x54#8, 0x00#8, 8, ⟨false, false, false⟩), 24) ∧
    seen (exec (.transmit 0xFF#8) State.reset) (fun t => (t.stage, t.line.data)) = some (0xFF#8, true) := by
  decide +kernel

/-- V4. -/
theorem test_latch :
    seen (exec .latch waiting) (fun t => (ends t, t.trace)) =
      some ((0x00#8, 0x14#8, 0x14#8, 0, ⟨false, false, true⟩),
        [.lineWrite .latch false, .lineWrite .latch true, .strobe true false 0x4#4]) := by
  decide +kernel

/-- V5: EN rises, no strobe. -/
theorem test_send_rise :
    seen (exec (.send 0x43#8) State.reset) ends = some (0x00#8, 0x43#8, 0x43#8, 0, ⟨false, false, true⟩) ∧
    seen (exec (.send 0x43#8) State.reset) (fun t => (t.trace.length, strobesOf t.trace)) = some (26, []) := by
  decide +kernel

/-- V6, V7: EN stays, EN falls. -/
theorem test_send_fall :
    seen (exec (.send 0x40#8) { State.reset with out := 0x40#8 }) (fun t => (t.trace.length, strobesOf t.trace)) = some (26, []) ∧
    seen (exec (.send 0x00#8) { State.reset with out := 0x7F#8 }) (fun t => (t.trace.length, t.trace.getLast?)) =
      some (27, some (.strobe false false 0x0#4)) := by
  decide +kernel

/-- V9: the second transmit. -/
theorem test_unlatched_transmit :
    seen (exec (.transmit 0x34#8) { State.reset with stage := 0x12#8, linkcnt := 8 }) (fun t => (t.stage, t.linkcnt.val, t.fault, t.trace)) =
      some (0x12#8, 8, some .unlatchedTransmit, [.fault .unlatchedTransmit]) := by
  decide +kernel

/-- V10, V11. -/
theorem test_partial_latch :
    seen (exec .latch State.reset) (fun t => (t.fault, t.trace)) = some (some .partialLatch, [.fault .partialLatch]) ∧
    seen (exec .latch (bitCell true State.reset)) (fun t => (t.fault, t.trace.length, t.out)) = some (some .partialLatch, 4, 0x00#8) := by
  decide +kernel

/-! ## DisplayController (V31 to V43) -/

/-- V31. -/
theorem test_nibble :
    seen (exec (.nibble 0x4#4 true) State.reset) (fun t => (t.acc, t.out, t.trace.length, t.trace.drop 52)) =
      some (0x14#8, 0x14#8, 54, [.strobe true false 0x4#4, .delay .nibble 1]) := by
  decide +kernel

/-- V31, the frames 54 and 14 one by one: the second is the device write. -/
theorem test_control_byte_sends :
    seen (exec (.cbEn1 true 0x4#4) State.reset) (fun t => (t.acc, t.out, t.trace.length)) = some (0x54#8, 0x54#8, 26) ∧
    seen (exec (.cbEn0 true 0x4#4) { State.reset with out := 0x54#8 }) (fun t => (t.acc, t.out, t.trace.getLast?)) =
      some (0x14#8, 0x14#8, some (.strobe true false 0x4#4)) := by
  decide +kernel

/-- V33, V36. -/
theorem test_write_byte :
    seen (exec (.writeByte 0x33#8 false) State.reset) (fun t => (strobesOf t.trace, delaysOf t.trace, (lineWritesOf t.trace).length)) =
      some ([(false, false, 0x3#4), (false, false, 0x3#4)], [(.nibble, 1), (.nibble, 1), (.exec, 37)], 104) ∧
    seen (exec (.writeByte 0x80#8 false) State.reset) (fun t => strobesOf t.trace) =
      some [(false, false, 0x8#4), (false, false, 0x0#4)] := by
  decide +kernel

/-- V38. -/
theorem test_write_command :
    seen (exec (.writeCommand 0xC0#8) readyState) (fun t => (strobesOf t.trace, delaysOf t.trace, t.out)) =
      some ([(false, false, 0xC#4), (false, false, 0x0#4)], [(.nibble, 1), (.nibble, 1), (.exec, 37)], 0x00#8) := by
  decide +kernel

/-- V39. -/
theorem test_write_data :
    seen (exec (.writeData 0x30#8) readyState) (fun t => (t.acc, strobesOf t.trace)) =
      some (0x10#8, [(true, false, 0x3#4), (true, false, 0x0#4)]) ∧
    seen (exec (.writeData 0x30#8) readyState) (fun t => delaysOf t.trace) = some [(.nibble, 1), (.nibble, 1), (.exec, 41)] := by
  decide +kernel

/-- P1's second call, V41. -/
theorem test_write_string :
    seen (exec (.writeString [0x48#8, 0x49#8]) readyState) (fun t => (t.out, strobesOf t.trace)) =
      some (0x19#8, [(true, false, 0x4#4), (true, false, 0x8#4), (true, false, 0x4#4), (true, false, 0x9#4)]) ∧
    exec (.writeString []) readyState = .next readyState := by
  refine ⟨by decide +kernel, rfl⟩

/-- V42, V43. -/
theorem test_not_ready :
    seen (exec (.writeString []) State.reset) (fun t => (t.fault, t.trace)) = some (some .notReady, [.fault .notReady]) ∧
    seen (exec (.writeData 0x41#8) State.reset) (fun t => (t.fault, t.trace, t.dstate)) =
      some (some .notReady, [.fault .notReady], .uninitialized) := by
  decide +kernel

/-! ## Initialization (V50, V52, V54), delay (V60) and faults (V70) -/

/-- V50: the strobes, and `OUT` at the end. -/
theorem test_initialise :
    seen (exec .initialise State.reset) (fun t => (t.out, strobesOf t.trace)) =
      some (0x01#8, [(false, false, 0x3#4), (false, false, 0x3#4), (false, false, 0x3#4), (false, false, 0x2#4), (false, false, 0x2#4),
        (false, false, 0x8#4), (false, false, 0x0#4), (false, false, 0xC#4), (false, false, 0x0#4), (false, false, 0x6#4),
        (false, false, 0x0#4), (false, false, 0x1#4)]) := by
  decide +kernel

/-- V54. -/
theorem test_initialise_again :
    seen (exec .initialise readyState) (fun t => (t.fault, t.trace, t.dstate)) = some (some .reinit, [.fault .reinit], .ready) := by
  decide

/-- V60, V61. -/
theorem test_delay :
    exec (.delay .exec 1520) State.reset = .next { State.reset with trace := [.delay .exec 1520] } ∧
    exec (.delay .nibble 0) State.reset = .next { State.reset with trace := [.delay .nibble 0] } := ⟨rfl, rfl⟩

/-- V70. -/
theorem test_sticky :
    exec .initialise faulted = .fault (.stuckAfterFault .reinit) ∧ step faulted = .fault (.stuckAfterFault .reinit) := ⟨rfl, rfl⟩

/-- V55: from `FourHi`, the modes after the three 0x3 strobes and the 0x2. -/
theorem test_device_modes :
    (deviceAfter { State.reset.device with mode := .fourHi } [(false, false, 0x3#4)]).mode = .fourLo 0x3#4 ∧
    (deviceAfter { State.reset.device with mode := .fourHi } [(false, false, 0x3#4), (false, false, 0x3#4)]).mode = .eight := ⟨rfl, rfl⟩

/-! ## Witnesses: for every statement with hypotheses, states and operands that meet them, clause by clause -/

/-- A call can start, and the link is open, right after reset: the hypotheses of most results. -/
theorem reset_open : State.reset.cfg.Legal ∧ CanStart State.reset ∧ LinkOpen State.reset := by
  refine ⟨by decide, ⟨rfl, rfl⟩, by decide, rfl⟩

/-- The link is open at the count's other boundary too. -/
theorem seven_open : CanStart { State.reset with linkcnt := 7 } ∧ LinkOpen { State.reset with linkcnt := 7 } :=
  ⟨⟨rfl, rfl⟩, by decide, rfl⟩

theorem ready_open : readyState.cfg.Legal ∧ CanStart readyState ∧ LinkOpen readyState ∧ readyState.dstate = .ready := by
  refine ⟨by decide, ⟨rfl, rfl⟩, ⟨by decide, rfl⟩, rfl⟩

theorem waiting_waits : CanStart waiting ∧ waiting.linkcnt = 8 := ⟨⟨rfl, rfl⟩, rfl⟩

theorem wirings_legal : Wiring.identity.IsPermutation ∧ wiringB.IsPermutation ∧ wiringR.IsPermutation := by decide

theorem witness_ControlByteAssembly : controlByte 0xF#4 false true = controlByte 0xF#4 false true := rfl

theorem witness_ControlByteRecordsDecode :
    decode [0x50#8] = .ok (.cbEn1 true 0x0#4) ∧ decode [0x0F#8] = .ok (.cbEn0 false 0xF#4) ∧
    (0x20#8).getLsbD 7 = false ∧ (0x20#8).getLsbD 5 = true := ⟨rfl, rfl, rfl, rfl⟩

theorem witness_EncodeOfDecode : decode [0x8A#8, 0x06#8, 0x00#8, 0x01#8] = .ok (.delay .exec 256) := rfl

theorem witness_StepRunsDecodedCall :
    (hosted [[0x80#8]]).cfg.Legal ∧ CanStart (hosted [[0x80#8]]) ∧ (hosted [[0x80#8]]).calls = hostCall [0x80#8] :: [] ∧
    decode (hostCall [0x80#8]).record = .ok .initialise ∧ mayCall (hostCall [0x80#8]).caller .initialise = true := by
  refine ⟨by decide, ⟨rfl, rfl⟩, rfl, rfl, rfl⟩

theorem witness_StepOutsideACall :
    ¬ (wiredReset wiringBad).cfg.wiring.IsPermutation ∧
    (Config.informative.wiring.IsPermutation ∧
      ¬ IsFourBitFunctionSet ({ Config.informative with initFunctionSet := 0x38#8 } : Config).initFunctionSet) ∧
    (faulted.cfg.Legal ∧ faulted.fault = some .reinit) ∧
    (busyState.cfg.Legal ∧ busyState.fault = none ∧ busyState.seq = .busy (.delay .exec 5) 0) ∧
    (State.reset.cfg.Legal ∧ CanStart State.reset ∧ State.reset.calls = []) ∧
    ((hosted [[]]).cfg.Legal ∧ CanStart (hosted [[]]) ∧ (hosted [[]]).calls = hostCall [] :: [] ∧
      decode (hostCall []).record = .error .emptyRecord) ∧
    ((hosted [[0x85#8]]).cfg.Legal ∧ CanStart (hosted [[0x85#8]]) ∧ (hosted [[0x85#8]]).calls = hostCall [0x85#8] :: [] ∧
      decode (hostCall [0x85#8]).record = .ok .latch ∧ mayCall (hostCall [0x85#8]).caller .latch = false) := by
  refine ⟨by decide, by decide, ⟨by decide, rfl⟩, ⟨by decide, rfl, rfl⟩, ⟨by decide, ⟨rfl, rfl⟩, rfl⟩,
    ⟨by decide, ⟨rfl, rfl⟩, rfl, rfl⟩, by decide, ⟨rfl, rfl⟩, rfl, rfl, rfl⟩

/-- R221: a host's write runs; a host's latch is refused, and the same call from inside the block runs. -/
theorem test_step_refuses_liberty :
    step (hosted [[0x85#8]]) = .refused (.notUpstream .latch) ∧
    seen (step { waiting with calls := [insideCall [0x85#8]] }) (fun t => (t.out, t.calls)) = some (0x14#8, []) := by
  refine ⟨rfl, by decide +kernel⟩

theorem witness_HostMayCallUpstreamOnly :
    let s := hosted [[0x83#8]]
    s.seq = .idle ∧ s.calls = hostCall [0x83#8] :: [] ∧ (hostCall [0x83#8]).caller = .host ∧
      decode (hostCall [0x83#8]).record = .ok (.writeString []) ∧ ∃ t, step s = .next t := ⟨rfl, rfl, rfl, rfl, _, rfl⟩

theorem witness_RemapPermutesBits : wiringR.IsPermutation ∧ CanStart (wiredReset wiringR) := ⟨by decide, rfl, rfl⟩

/-- Both sides of the last clause occur: `WIRING_B` is an involution, `WIRING_R` is none (V24, V25). -/
theorem witness_UnremapInvertsRemap :
    (wiringB.IsPermutation ∧ inverseWiring wiringB = wiringB) ∧ (wiringR.IsPermutation ∧ inverseWiring wiringR ≠ wiringR) := by
  decide

theorem witness_ClockEdgeShiftsStage : State.reset.line.clk = false := rfl

theorem witness_LatchEdgeUpdatesOutputs : State.reset.line.latch = false := rfl

/-- A falling CLK, a CLK and a LATCH that are high already, and a DATA write. -/
theorem witness_OtherLineWritesOnlySetLevel :
    (¬ (Line.clk = .clk ∧ State.reset.line.clk = false ∧ false = true) ∧
      ¬ (Line.clk = .latch ∧ State.reset.line.latch = false ∧ false = true)) ∧
    (¬ (Line.latch = .clk ∧ waiting.line.clk = false ∧ true = true) ∧
      ¬ (Line.latch = .latch ∧ waiting.line.latch = false ∧ true = true)) ∧
    (¬ (Line.data = .clk ∧ State.reset.line.clk = false ∧ true = true) ∧
      ¬ (Line.data = .latch ∧ State.reset.line.latch = false ∧ true = true)) ∧
    Line.data ≠ .latch ∧ Line.clk ≠ .latch := by
  decide

/-- EN falls from 0x40 to 0x00; it rises from 0x00 to 0x40. -/
theorem witness_DeviceSamplesOnEnFall :
    (bitAt 0x40#8 (State.reset.cfg.wiring.line 6) = true ∧ bitAt 0x00#8 (State.reset.cfg.wiring.line 6) = false) ∧
    ¬ (bitAt 0x00#8 (State.reset.cfg.wiring.line 6) = true ∧ bitAt 0x40#8 (State.reset.cfg.wiring.line 6) = false) := by
  decide

theorem witness_TransmitEffect :
    (CanStart State.reset ∧ LinkOpen State.reset) ∧ (CanStart waiting ∧ waiting.linkcnt = 8) := ⟨reset_open.2, waiting_waits⟩

theorem witness_LatchEffect :
    (CanStart waiting ∧ waiting.linkcnt = 8) ∧ (CanStart State.reset ∧ State.reset.linkcnt ≠ 8) ∧
    (let s : State := { waiting with out := 0x14#8 }; CanStart s ∧ s.linkcnt = 8 ∧ s.out = s.stage) := by
  refine ⟨waiting_waits, ⟨⟨rfl, rfl⟩, by decide⟩, ⟨rfl, rfl⟩, rfl, rfl⟩

theorem witness_SendEffect : CanStart State.reset ∧ LinkOpen State.reset := reset_open.2

theorem witness_SendIsTransmitThenLatch : CanStart State.reset ∧ LinkOpen State.reset := reset_open.2

theorem witness_UnlatchedByteStopsEverySend : CanStart waiting ∧ waiting.linkcnt = 8 := waiting_waits

theorem witness_UnlatchedByteStopsUpstreamCalls :
    (let s : State := { waiting with dstate := .ready }; CanStart s ∧ s.linkcnt = 8 ∧ s.dstate = .ready) ∧
    (CanStart waiting ∧ waiting.linkcnt = 8 ∧ waiting.dstate = .uninitialized) :=
  ⟨⟨⟨rfl, rfl⟩, rfl, rfl⟩, ⟨rfl, rfl⟩, rfl, rfl⟩

theorem witness_SendIsAtomicToTheDevice : CanStart State.reset ∧ LinkOpen State.reset := reset_open.2

theorem witness_NibbleTransferEffect : State.reset.cfg.Legal ∧ CanStart State.reset ∧ LinkOpen State.reset := reset_open

theorem witness_ControlByteSendEffect : State.reset.cfg.Legal ∧ CanStart State.reset ∧ LinkOpen State.reset := reset_open

theorem witness_NibbleIsTwoSendsAndADelay : CanStart State.reset ∧ LinkOpen State.reset := reset_open.2

theorem witness_OnlyTheEnableLineDiffers : wiringR.IsPermutation := wirings_legal.2.2

theorem witness_WriteByteEffect : State.reset.cfg.Legal ∧ CanStart State.reset ∧ LinkOpen State.reset := reset_open

theorem witness_FourSendsPerByte : State.reset.cfg.Legal ∧ CanStart State.reset ∧ LinkOpen State.reset := reset_open

theorem witness_WriteCommandEffect :
    (readyState.cfg.Legal ∧ CanStart readyState ∧ LinkOpen readyState ∧ readyState.dstate = .ready) ∧
    (CanStart State.reset ∧ State.reset.dstate ≠ .ready) := ⟨ready_open, ⟨rfl, rfl⟩, by decide⟩

theorem witness_WriteDataEffect :
    (readyState.cfg.Legal ∧ CanStart readyState ∧ LinkOpen readyState ∧ readyState.dstate = .ready) ∧
    (CanStart State.reset ∧ State.reset.dstate ≠ .ready) := ⟨ready_open, ⟨rfl, rfl⟩, by decide⟩

theorem witness_WriteStringEffect :
    (readyState.cfg.Legal ∧ CanStart readyState ∧ LinkOpen readyState ∧ readyState.dstate = .ready) ∧
    (CanStart State.reset ∧ State.reset.dstate ≠ .ready) := ⟨ready_open, ⟨rfl, rfl⟩, by decide⟩

theorem witness_WriteStringIsItsCharacters : CanStart readyState ∧ LinkOpen readyState ∧ readyState.dstate = .ready :=
  ready_open.2

theorem witness_ExecutionDelayIsLast : CanStart State.reset ∧ LinkOpen State.reset := reset_open.2

theorem witness_NoCachingOrDeduplication :
    (readyState.cfg.Legal ∧ CanStart readyState ∧ LinkOpen readyState ∧ readyState.dstate = .ready) ∧
    (let s : State := { State.reset with out := 0x43#8 }; CanStart s ∧ LinkOpen s ∧ s.out = 0x43#8) :=
  ⟨ready_open, ⟨rfl, rfl⟩, ⟨by decide, rfl⟩, rfl⟩

theorem witness_InitializeEffect :
    (State.reset.cfg.Legal ∧ CanStart State.reset ∧ LinkOpen State.reset ∧ State.reset.dstate = .uninitialized) ∧
    (CanStart readyState ∧ readyState.dstate ≠ .uninitialized) :=
  ⟨⟨reset_open.1, reset_open.2.1, reset_open.2.2, rfl⟩, ⟨rfl, rfl⟩, by decide⟩

theorem witness_InitializeCountsAndLists :
    State.reset.cfg.Legal ∧ CanStart State.reset ∧ LinkOpen State.reset ∧ State.reset.dstate = .uninitialized :=
  witness_InitializeEffect.1

theorem witness_InitializingThroughoutInitialize :
    CanStart State.reset ∧ LinkOpen State.reset ∧ State.reset.dstate = .uninitialized := witness_InitializeEffect.1.2

theorem witness_InitializeIndependentOfPowerOn :
    Config.informative.Legal ∧ ({ Config.informative with wiring := wiringR, initFunctionSet := 0x2F#8 } : Config).Legal := by
  decide

theorem witness_DeviceReception :
    ({ State.reset.device with mode := .eight } : Device).mode = .eight ∧
    ({ State.reset.device with mode := .fourHi } : Device).mode = .fourHi ∧
    ({ State.reset.device with mode := .fourLo 0xF#4 } : Device).mode = .fourLo 0xF#4 := ⟨rfl, rfl, rfl⟩

theorem witness_DelayEffect : CanStart State.reset := reset_open.2.1

theorem witness_FaultEntryIsSticky : faulted.fault = some .reinit ∧ faulted.cfg.Legal := ⟨rfl, by decide⟩

theorem witness_FaultReasonsAndCodes : faultCode .partialLatch = faultCode .partialLatch := rfl

theorem witness_OverlappingCallStops : busyState.fault = none ∧ busyState.seq = .busy (.delay .exec 5) 0 := ⟨rfl, rfl⟩

/-- Whatever the host calls. -/
theorem host_calls (records : List (List Byte)) : UpstreamHost (records.map hostCall) := by
  intro call h
  obtain ⟨_, _, rfl⟩ := List.mem_map.1 h
  rfl

theorem witness_InvariantsHoldAtReset : Config.informative.Legal ∧ UpstreamHost ([[0x80#8], [0x85#8]].map hostCall) :=
  ⟨by decide, host_calls _⟩

/-- The block's invariant in a state with host calls to run, and in one with a byte waiting and a call from inside. -/
theorem hosted_inv (records : List (List Byte)) : BlockInv (hosted records) :=
  { legal := reset_open.1, idle := rfl, whole := .inl rfl, clkLow := rfl, accLegal := (by decide : IsLegalControlByte 0x00#8),
    settled := fun _ h => (by cases h), recorded := rfl, latched := fun _ h => by cases h }

theorem waiting_inv : BlockInv { waiting with calls := [insideCall [0x85#8]] } :=
  { legal := by decide, idle := rfl, whole := .inr rfl, clkLow := rfl, accLegal := by decide, settled := fun _ => by decide,
    recorded := rfl, latched := fun h => by cases h }

theorem witness_StepKeepsBlockInv :
    (BlockInv (hosted [[0x80#8]]) ∧ ∃ t, step (hosted [[0x80#8]]) = .next t) ∧
    (BlockInv { waiting with calls := [insideCall [0x85#8]] } ∧ ∃ t, step { waiting with calls := [insideCall [0x85#8]] } = .next t) :=
  ⟨⟨hosted_inv _, _, rfl⟩, waiting_inv, _, rfl⟩

theorem hosted_upstream : UpstreamInv (hosted [[0x80#8]]) :=
  { hosted_inv [[0x80#8]] with
    host := host_calls _
    sent := rfl
    noLinkFault := ⟨by decide, by decide⟩
    writesOnly := fun _ h => by cases h }

theorem witness_StepKeepsUpstreamInv : UpstreamInv (hosted [[0x80#8]]) ∧ ∃ t, step (hosted [[0x80#8]]) = .next t :=
  ⟨hosted_upstream, _, rfl⟩

theorem witness_UpstreamStepsRespectMinima :
    UpstreamInv (hosted [[0x80#8]]) ∧ DurationsCover (fun _ => 1) (hosted [[0x80#8]]).cfg ∧
    MinimaRespected (fun _ => 1) (hosted [[0x80#8]]).trace ∧ ∃ t, step (hosted [[0x80#8]]) = .next t :=
  ⟨hosted_upstream, by unfold DurationsCover; decide, fun _ _ h => absurd h List.not_mem_nil, _, rfl⟩

theorem witness_TraceOnlyGrows :
    (∃ t, exec (.writeData 0x41#8) readyState = .next t) ∧ ∃ t, step (hosted [[0x80#8]]) = .next t := ⟨⟨_, rfl⟩, _, rfl⟩

theorem witness_ConfigurationIsFixed :
    (∃ t, exec (.writeData 0x41#8) readyState = .next t) ∧ ∃ t, step (hosted [[0x80#8]]) = .next t := ⟨⟨_, rfl⟩, _, rfl⟩

theorem witness_DStateTransitions : ∃ t, exec .initialise State.reset = .next t := ⟨_, rfl⟩

theorem witness_OwnershipOfState :
    (∃ t, exec (.transmit 0x54#8) State.reset = .next t) ∧ (∃ t, exec .latch waiting = .next t) ∧
    (∃ t, exec (.send 0x54#8) State.reset = .next t) ∧ (∃ t, exec (.remap 0x54#8) State.reset = .next t) ∧
    ∃ t, exec (.delay .exec 0) State.reset = .next t := ⟨⟨_, rfl⟩, ⟨_, rfl⟩, ⟨_, rfl⟩, ⟨_, rfl⟩, _, rfl⟩

theorem witness_SequencerRefinesExec : CanStart State.reset := reset_open.2.1

/-- The first and the last event of a `send`, and the first transmit of one over an unlatched byte, which raises the fault. -/
theorem witness_SequencerAdvancesByOneEvent :
    (let s : State := { State.reset with seq := .busy (.send 0x54#8) 0 };
      s.fault = none ∧ 0 < eventCount s.cfg (.send 0x54#8) ∧ 0 + 1 < eventCount s.cfg (.send 0x54#8) ∧
        (sequencerTick s).fault = none) ∧
    (let s : State := { waiting with seq := .busy (.send 0x54#8) 25 };
      s.fault = none ∧ 25 < eventCount s.cfg (.send 0x54#8) ∧ 25 + 1 = eventCount s.cfg (.send 0x54#8) ∧
        (sequencerTick s).fault = none) ∧
    (let s : State := { State.reset with seq := .busy (.send 0x54#8) 23 };
      s.fault = none ∧ 23 < eventCount s.cfg (.send 0x54#8) ∧ (sequencerTick s).fault ≠ none) := by
  decide +kernel

end Sys2Proof.Tests
end

section
/-! PROOFS. The operation that a call runs (00_scope.md R10, R12): one whole-operation frame around one body for each operation,
and the step that runs the oldest call. -/

namespace Sys2Proof.Machine

/-- What an operation does once it has started: the body that `exec` runs inside `runOperation`. -/
def bodyOf : Instr → State → State
  | .initialise => initialiseDisplay
  | .writeCommand v => writeCommand v
  | .writeData v => writeData v
  | .writeString codes => writeString codes
  | .transmit b => transmit b
  | .latch => latch
  | .send b => send b
  | .remap cb => fun s => { s with result := some (remapFrame s.cfg.wiring cb) }
  | .nibble n rs => nibbleTransfer n rs
  | .writeByte v rs => writeByte v rs
  | .delay kind t => delayFor kind t
  | .cbEn1 rs n => present (controlByte n rs true)
  | .cbEn0 rs n => present (controlByte n rs false)

/-- Every operation is its body inside the same frame, so what the frame says holds for all of them. -/
theorem exec_eq_runOperation (i : Instr) (s : State) : exec i s = runOperation (bodyOf i) s := by
  cases i <;> rfl

theorem exec_of_canStart {s : State} (i : Instr) (h : CanStart s) : exec i s = .next (bodyOf i s) := by
  rw [exec_eq_runOperation, runOperation_of_canStart _ h]

/-- Settles O42: every operation stands in the frame of `runOperation`, which has no step while `SEQ` is Busy. -/
theorem overlappingCallStops : Obligations.OverlappingCallStops := by
  intro s i op k hfault hbusy
  rw [exec_eq_runOperation, runOperation_of_busy _ hfault hbusy]

/-- Between operations, a record that names an operation gives the step to its caller's liberties (R221). -/
theorem step_of_decoded {s : State} {call : Call} {rest : List Call} {i : Instr} (hlegal : s.cfg.Legal)
    (hstart : CanStart s) (hcalls : s.calls = call :: rest) (hdecode : decode call.record = .ok i) :
    step s = if mayCall call.caller i then exec i { s with calls := rest } else .refused (.notUpstream i) := by
  obtain ⟨hfault, hidle⟩ := hstart
  have hdefect : s.cfg.defect = none := (Config.defect_eq_none_iff _).mpr hlegal
  simp only [step, hdefect, hfault, hidle, hcalls, hdecode]

/-- Settles O6: the caller may make the call, so the step is the operation that its record names. -/
theorem stepRunsDecodedCall : Obligations.StepRunsDecodedCall := by
  intro s call rest i hlegal hstart hcalls hdecode hmay
  rw [step_of_decoded hlegal hstart hcalls hdecode, if_pos hmay]

end Sys2Proof.Machine
end

section
/-! PROOFS. What one entry of an expansion can do (10_state.md R34), and that the flat expansion of an operation, run without a
pause, is the operation's body. -/

namespace Sys2Proof.Machine

/-! One line write, and one entry. -/

/-- A line write changes the link, the shift register, the trace and the device only, and it does not look at `SEQ`. -/
theorem setLine_frame (l : Line) (b : Level) (q : Seq) (s : State) :
    setLine l b { s with seq := q } =
      { s with
        seq := q
        line := s.line.set l b
        stage := (setLine l b s).stage
        out := (setLine l b s).out
        linkcnt := (setLine l b s).linkcnt
        trace := (setLine l b s).trace
        device := (setLine l b s).device } := by
  cases l with
  | data => rw [setLine_data, setLine_data]; rfl
  | clk =>
    cases b with
    | false => rw [setLine_clk_low, setLine_clk_low]; rfl
    | true =>
      cases h : s.line.clk with
      | false => rw [setLine_clk_rise h, setLine_clk_rise (by exact h)]; rfl
      | true => rw [setLine_clk_held h, setLine_clk_held (by exact h)]; rfl
  | latch =>
    cases b with
    | false => rw [setLine_latch_low, setLine_latch_low]; rfl
    | true =>
      cases h : s.line.latch with
      | false => rw [setLine_latch_rise h, setLine_latch_rise (by exact h), latchRise_eq, latchRise_eq]; rfl
      | true => rw [setLine_latch_held h, setLine_latch_held (by exact h)]; rfl

@[simp] theorem setLine_cfg (l : Line) (b : Level) (s : State) : (setLine l b s).cfg = s.cfg :=
  congrArg (·.cfg) (setLine_frame l b s.seq s)

@[simp] theorem setLine_dstate (l : Line) (b : Level) (s : State) : (setLine l b s).dstate = s.dstate :=
  congrArg (·.dstate) (setLine_frame l b s.seq s)

@[simp] theorem setLine_acc (l : Line) (b : Level) (s : State) : (setLine l b s).acc = s.acc :=
  congrArg (·.acc) (setLine_frame l b s.seq s)

@[simp] theorem setLine_line (l : Line) (b : Level) (s : State) : (setLine l b s).line = s.line.set l b :=
  congrArg (·.line) (setLine_frame l b s.seq s)

@[simp] theorem setLine_fault (l : Line) (b : Level) (s : State) : (setLine l b s).fault = s.fault :=
  congrArg (·.fault) (setLine_frame l b s.seq s)

@[simp] theorem setLine_seq (l : Line) (b : Level) (s : State) : (setLine l b s).seq = s.seq :=
  congrArg (·.seq) (setLine_frame l b s.seq s)

@[simp] theorem setLine_calls (l : Line) (b : Level) (s : State) : (setLine l b s).calls = s.calls :=
  congrArg (·.calls) (setLine_frame l b s.seq s)

@[simp] theorem setLine_result (l : Line) (b : Level) (s : State) : (setLine l b s).result = s.result :=
  congrArg (·.result) (setLine_frame l b s.seq s)

/-- A line write with another `SEQ` is the line write, with that `SEQ`. -/
theorem setLine_withSeq (l : Line) (b : Level) (q : Seq) (s : State) :
    setLine l b { s with seq := q } = { setLine l b s with seq := q } := by
  rw [setLine_frame]
  simp

/-- One entry of an expansion either raises a fault and does nothing else, or raises none and leaves `SEQ` and the configuration
as they are. In neither case does it look at `SEQ`. -/
theorem Action.effect_cases (a : Action) {s : State} (hf : s.fault = none) :
    (∃ r, ∀ q, a.effect { s with seq := q } = raise r s) ∨
      ((a.effect s).fault = none ∧ (a.effect s).cfg = s.cfg ∧
        ∀ q, a.effect { s with seq := q } = { a.effect s with seq := q }) := by
  cases a with
  | setLine l b => exact .inr ⟨by simpa [effect] using hf, setLine_cfg l b s, fun q => setLine_withSeq l b q s⟩
  | delay k t => exact .inr ⟨hf, rfl, fun _ => rfl⟩
  | writeAcc cb => exact .inr ⟨hf, rfl, fun _ => rfl⟩
  | writeDState d => exact .inr ⟨hf, rfl, fun _ => rfl⟩
  | returnValue v => exact .inr ⟨hf, rfl, fun _ => rfl⟩
  | checkReady =>
    by_cases h : s.dstate = .ready
    · exact .inr (by simp [effect, requireReady, h, hf])
    · exact .inl ⟨.notReady, fun q => requireReady_neg _ h⟩
  | checkUninitialized =>
    by_cases h : s.dstate = .uninitialized
    · exact .inr (by simp [effect, requireUninitialized, h, hf])
    · exact .inl ⟨.reinit, fun q => requireUninitialized_neg _ h⟩
  | checkLatched =>
    by_cases h : s.linkcnt = 8
    · exact .inl ⟨.unlatchedTransmit, fun q => requireLatched_neg _ h⟩
    · exact .inr (by simp [effect, requireLatched, h, hf])
  | checkComplete =>
    by_cases h : s.linkcnt = 8
    · exact .inr (by simp [effect, requireComplete, h, hf])
    · exact .inl ⟨.partialLatch, fun q => requireComplete_neg _ h⟩

/-! Lists of entries. -/

theorem runActions_of_fault {s : State} {r : FaultReason} (as : List Action) (h : s.fault = some r) :
    runActions as s = s := by
  induction as with
  | nil => rfl
  | cons a as ih => rw [runActions, andThen_of_fault _ h, ih]

theorem runActions_cons {s : State} (a : Action) (as : List Action) (hf : s.fault = none) :
    runActions (a :: as) s = runActions as (a.effect s) := by
  rw [runActions, andThen_of_noFault _ hf]

theorem runActions_append (as bs : List Action) (s : State) :
    runActions (as ++ bs) s = runActions bs (runActions as s) := by
  induction as generalizing s with
  | nil => rfl
  | cons a as ih => exact ih _

@[simp] theorem runActions_cfg (as : List Action) (s : State) : (runActions as s).cfg = s.cfg := by
  induction as generalizing s with
  | nil => rfl
  | cons a as ih =>
    rw [runActions, ih]
    obtain ⟨hf, h⟩ | ⟨r, -, h⟩ := andThen_cases s a.effect
    · rw [h]
      obtain ⟨r, hr⟩ | ⟨-, hc, -⟩ := a.effect_cases hf
      · exact congrArg (·.cfg) (hr s.seq)
      · exact hc
    · rw [h]

/-! The expansion of each body. -/

/-- With the configuration `c`, the entries `as` in order are the body `f`, from every state without a fault. -/
def Realises (c : Config) (as : List Action) (f : State → State) : Prop :=
  ∀ s, s.cfg = c → s.fault = none → runActions as s = f s

theorem realises_nil (c : Config) : Realises c [] fun s => s := fun _ _ _ => rfl

theorem realises_singleton (c : Config) (a : Action) : Realises c [a] a.effect := fun _ _ hs => runActions_cons a [] hs

/-- Expansions in a row are the composition of their bodies, which ends early after a fault (R214). -/
theorem Realises.append {c : Config} {as bs : List Action} {f g : State → State} (hf : Realises c as f)
    (hg : Realises c bs g) : Realises c (as ++ bs) fun s => andThen (f s) g := by
  intro s hc hs
  have hfc : (f s).cfg = c := by rw [← hf s hc hs, runActions_cfg, hc]
  rw [runActions_append, hf s hc hs]
  obtain ⟨hn, h⟩ | ⟨r, hr, h⟩ := andThen_cases (f s) g
  · exact (hg _ hfc hn).trans h.symm
  · exact (runActions_of_fault bs hr).trans h.symm

theorem Realises.congr {c : Config} {as : List Action} {f g : State → State} (hf : Realises c as f)
    (h : ∀ s, s.cfg = c → s.fault = none → f s = g s) : Realises c as g :=
  fun s hc hs => (hf s hc hs).trans (h s hc hs)

/-! The entry checks (R210), as an entry and the rest of the operation. -/

theorem Realises.checkReady {c : Config} {as : List Action} {f : State → State} (h : Realises c as f) :
    Realises c (.checkReady :: as) (requireReady f) := by
  refine ((realises_singleton c .checkReady).append h).congr fun s _ hs => ?_
  by_cases hd : s.dstate = .ready <;> simp [Action.effect, requireReady, andThen, hd, hs]

theorem Realises.checkUninitialized {c : Config} {as : List Action} {f : State → State} (h : Realises c as f) :
    Realises c (.checkUninitialized :: as) (requireUninitialized f) := by
  refine ((realises_singleton c .checkUninitialized).append h).congr fun s _ hs => ?_
  by_cases hd : s.dstate = .uninitialized <;> simp [Action.effect, requireUninitialized, andThen, hd, hs]

theorem Realises.checkLatched {c : Config} {as : List Action} {f : State → State} (h : Realises c as f) :
    Realises c (.checkLatched :: as) (requireLatched f) := by
  refine ((realises_singleton c .checkLatched).append h).congr fun s _ hs => ?_
  by_cases hd : s.linkcnt = 8 <;> simp [Action.effect, requireLatched, andThen, hd, hs]

theorem Realises.checkComplete {c : Config} {as : List Action} {f : State → State} (h : Realises c as f) :
    Realises c (.checkComplete :: as) (requireComplete f) := by
  refine ((realises_singleton c .checkComplete).append h).congr fun s _ hs => ?_
  by_cases hd : s.linkcnt = 8 <;> simp [Action.effect, requireComplete, andThen, hd, hs]

/-! SerialLink (R93, R120 to R124). -/

theorem realises_shiftOut (c : Config) (bits : List Level) : Realises c (cellActions bits) (shiftOut bits) := by
  intro s hc hs
  induction bits generalizing s with
  | nil => rfl
  | cons b bs ih =>
    have hcell : runActions (cellActions (b :: bs)) s = runActions (cellActions bs) (bitCell b s) := by
      simp [cellActions, runActions, andThen, Action.effect, bitCell, hs]
    rw [hcell, shiftOut, ih (bitCell b s) (by simpa [bitCell] using hc) (by simpa [bitCell] using hs)]

theorem realises_transmit (c : Config) (b : Byte) : Realises c (transmitActions b) (transmit b) :=
  (realises_shiftOut c (bitsOf b)).checkLatched

theorem realises_latchPulse (c : Config) : Realises c [.setLine .latch false, .setLine .latch true] latchPulse := by
  intro s _ hs
  simp [runActions, andThen, Action.effect, latchPulse, hs]

theorem realises_latch (c : Config) : Realises c latchActions latch := (realises_latchPulse c).checkComplete

theorem realises_send (c : Config) (b : Byte) : Realises c (sendActions b) (send b) :=
  (realises_transmit c b).append (realises_latch c)

/-! DisplayController (R150 to R154). -/

theorem realises_present (c : Config) (cb : Byte) : Realises c (presentActions c cb) (present cb) := by
  intro s hc hs
  subst hc
  rw [presentActions, runActions_cons _ _ hs]
  exact realises_send s.cfg _ { s with acc := cb } rfl hs

theorem shiftOut_acc (bits : List Level) (s : State) : (shiftOut bits s).acc = s.acc := by
  induction bits generalizing s with
  | nil => rfl
  | cons b bs ih => simp [shiftOut, ih, bitCell]

/-- `ACC` belongs to DisplayController (R22): a send leaves it as it is. -/
@[simp] theorem send_acc (b : Byte) (s : State) : (send b s).acc = s.acc := by
  have htransmit : (transmit b s).acc = s.acc := by
    by_cases h : s.linkcnt = 8 <;> simp [transmit, requireLatched, h, shiftOut_acc]
  have hlatch (t : State) : (latch t).acc = t.acc := by
    by_cases h : t.linkcnt = 8 <;> simp [latch, requireComplete, h, latchPulse]
  obtain ⟨-, h⟩ | ⟨r, -, h⟩ := andThen_cases (transmit b s) latch
  · rw [send, h, hlatch, htransmit]
  · rw [send, h, htransmit]

@[simp] theorem present_acc (cb : Byte) (s : State) : (present cb s).acc = cb := send_acc _ _

theorem clearEn_controlByte (n : Nibble) (rs : Level) : clearEn (controlByte n rs true) = controlByte n rs false := by
  revert n rs
  decide

/-- The second ControlByte of a nibble transfer, which R150 takes from `ACC`, is the one with EN = 0. -/
theorem nibbleTransfer_eq (n : Nibble) (rs : Level) (s : State) :
    nibbleTransfer n rs s =
      andThen (present (controlByte n rs true) s) fun s1 =>
      andThen (present (controlByte n rs false) s1) fun s2 => delayFor .nibble s2.cfg.tNibble s2 := by
  simp [nibbleTransfer, andThen, clearEn_controlByte]

theorem realises_nibble (c : Config) (n : Nibble) (rs : Level) :
    Realises c (nibbleActions c n rs) (nibbleTransfer n rs) := by
  have hdelay : Realises c [.delay .nibble c.tNibble] fun s => delayFor .nibble s.cfg.tNibble s :=
    (realises_singleton c _).congr fun s hc _ => by rw [hc]; rfl
  rw [nibbleActions, List.append_assoc, funext (nibbleTransfer_eq n rs)]
  exact (realises_present c _).append ((realises_present c _).append hdelay)

theorem realises_writeByte (c : Config) (v : Byte) (rs : Level) :
    Realises c (byteActions c v rs) (writeByte v rs) := by
  have hdelay : Realises c [.delay .exec (execDelay c rs v)] fun s => delayFor .exec (execDelay s.cfg rs v) s :=
    (realises_singleton c _).congr fun s hc _ => by rw [hc]; rfl
  rw [byteActions, List.append_assoc]
  exact (realises_nibble c _ rs).append ((realises_nibble c _ rs).append hdelay)

theorem realises_writeCodes (c : Config) (codes : List Byte) :
    Realises c (codes.flatMap fun v => .checkReady :: byteActions c v true) (writeCodes codes) := by
  induction codes with
  | nil => exact realises_nil c
  | cons v vs ih => exact (realises_writeByte c v true).checkReady.append ih

/-! The initialization (R180 to R188). -/

/-- The entries of a single-nibble step of the initialization. -/
def nibbleStepActions (c : Config) (n : Nibble) (kind : DelayKind) (t : Nat) : List Action :=
  nibbleActions c n false ++ [.delay kind t]

theorem realises_nibbleStep (c : Config) (n : Nibble) (kind : DelayKind) (t : Nat) :
    Realises c (nibbleStepActions c n kind t) (nibbleStep n kind t) :=
  (realises_nibble c n false).append (realises_singleton c (.delay kind t))

/-- The expansion of the initialization, cut at its numbered steps (R181 to R188). -/
theorem initActions_eq (c : Config) :
    initActions c =
      .checkUninitialized :: ([.writeDState .initializing, .delay .powerOn c.tPowerOn] ++
      (nibbleStepActions c 0x3#4 .reset1 c.tReset1 ++ (nibbleStepActions c 0x3#4 .reset2 c.tReset2 ++
      (nibbleStepActions c 0x3#4 .reset3 c.tReset3 ++ (nibbleStepActions c 0x2#4 .fourBit c.tFourBit ++
      (byteActions c c.initFunctionSet false ++ (byteActions c Config.initDisplayControl false ++
      (byteActions c Config.initEntryMode false ++ (byteActions c Config.initClear false ++
      [.writeDState .ready]))))))))) := by
  simp only [initActions, nibbleStepActions, List.append_assoc, List.cons_append, List.nil_append]

theorem realises_initialise (c : Config) : Realises c (initActions c) initialiseDisplay := by
  have hpowerOn : Realises c [.writeDState .initializing, .delay .powerOn c.tPowerOn] fun s =>
      delayFor .powerOn c.tPowerOn { s with dstate := .initializing } := by
    intro s _ hs
    simp [runActions, andThen, Action.effect, hs]
  have hsequence :=
    hpowerOn.append ((realises_nibbleStep c 0x3#4 .reset1 c.tReset1).append
    ((realises_nibbleStep c 0x3#4 .reset2 c.tReset2).append ((realises_nibbleStep c 0x3#4 .reset3 c.tReset3).append
    ((realises_nibbleStep c 0x2#4 .fourBit c.tFourBit).append ((realises_writeByte c c.initFunctionSet false).append
    ((realises_writeByte c Config.initDisplayControl false).append
    ((realises_writeByte c Config.initEntryMode false).append
    ((realises_writeByte c Config.initClear false).append (realises_singleton c (.writeDState .ready))))))))))
  rw [initActions_eq]
  exact (hsequence.congr fun s hc _ => by subst hc; rfl).checkUninitialized

/-- Every operation's expansion, in order, is its body (R10, R34). -/
theorem realises_expansion (c : Config) (i : Instr) : Realises c (expansion c i) (bodyOf i) := by
  cases i with
  | initialise => exact realises_initialise c
  | writeCommand v => exact (realises_writeByte c v false).checkReady
  | writeData v => exact (realises_writeByte c v true).checkReady
  | writeString codes => exact (realises_writeCodes c codes).checkReady
  | transmit b => exact realises_transmit c b
  | latch => exact realises_latch c
  | send b => exact realises_send c b
  | remap cb => exact (realises_singleton c _).congr fun s hc _ => by subst hc; rfl
  | nibble n rs => exact realises_nibble c n rs
  | writeByte v rs => exact realises_writeByte c v rs
  | delay kind t => exact realises_singleton c (.delay kind t)
  | cbEn1 rs n => exact realises_present c _
  | cbEn0 rs n => exact realises_present c _

end Sys2Proof.Machine
end

section
/-! PROOFS. The event-by-event machine (10_state.md R34; log entry 11) gives what the expansion run without a pause gives. -/

namespace Sys2Proof.Machine

/-! `SEQ` beside a run: the entries do not look at it, and a fault resets it (R214). -/

/-- `SEQ <- q`, unless a fault has ended the operation. -/
def withSeq (q : Seq) (s : State) : State := andThen s fun s => { s with seq := q }

theorem withSeq_of_noFault (q : Seq) {s : State} (h : s.fault = none) : withSeq q s = { s with seq := q } :=
  andThen_of_noFault _ h

theorem withSeq_of_fault (q : Seq) {s : State} {r : FaultReason} (h : s.fault = some r) : withSeq q s = s :=
  andThen_of_fault _ h

@[simp] theorem withSeq_cfg (q : Seq) (s : State) : (withSeq q s).cfg = s.cfg := by
  cases h : s.fault with
  | none => rw [withSeq_of_noFault q h]
  | some r => rw [withSeq_of_fault q h]

@[simp] theorem withSeq_withSeq (q q' : Seq) (s : State) : withSeq q (withSeq q' s) = withSeq q s := by
  cases h : s.fault with
  | none => rw [withSeq_of_noFault q' h, withSeq_of_noFault q h, withSeq_of_noFault q (by exact h)]
  | some r => rw [withSeq_of_fault q' h]

theorem runActions_withSeq (as : List Action) (q : Seq) (s : State) :
    runActions as (withSeq q s) = withSeq q (runActions as s) := by
  induction as generalizing s with
  | nil => rfl
  | cons a as ih =>
    cases hf : s.fault with
    | some r => rw [withSeq_of_fault q hf, runActions_of_fault _ hf, withSeq_of_fault q hf]
    | none =>
      have ha : a.effect { s with seq := q } = withSeq q (a.effect s) := by
        obtain ⟨r, hr⟩ | ⟨hn, -, hq⟩ := a.effect_cases hf
        · have hraise : a.effect s = raise r s := hr s.seq
          rw [hraise, hr q, withSeq_of_fault q (raise_fault r s)]
        · rw [hq q, withSeq_of_noFault q hn]
      rw [withSeq_of_noFault q hf, runActions_cons _ _ (by exact hf), ha, ih, runActions_cons _ _ hf]

/-- After a fault `SEQ` is Idle (R214). -/
def IdleAfterFault (s : State) : Prop := s.fault ≠ none → s.seq = .idle

theorem runActions_idleAfterFault (as : List Action) {s : State} (h : IdleAfterFault s) :
    IdleAfterFault (runActions as s) := by
  induction as generalizing s with
  | nil => exact h
  | cons a as ih =>
    cases hf : s.fault with
    | some r => rwa [runActions_of_fault _ hf]
    | none =>
      rw [runActions_cons _ _ hf]
      apply ih
      obtain ⟨r, hr⟩ | ⟨hn, -⟩ := a.effect_cases hf
      · have hraise : a.effect s = raise r s := hr s.seq
        rw [hraise]
        exact fun _ => rfl
      · exact fun hsome => absurd hn hsome

/-! The cut of an expansion at its events. -/

/-- The cut loses nothing: what comes before the first event, and then each event with what follows it. -/
theorem beforeFirstEvent_append_eventGroups (as : List Action) :
    beforeFirstEvent as ++ (eventGroups as).flatten = as := by
  induction as with
  | nil => rfl
  | cons a as ih => cases h : a.isEvent <;> simpa [beforeFirstEvent, eventGroups, h] using ih

theorem settleSeq_eq (op : Instr) (k : Nat) (s : State) :
    settleSeq op k s = withSeq (if k < eventCount s.cfg op then .busy op k else .idle) s := by
  cases hf : s.fault with
  | none =>
    rw [settleSeq, andThen_of_noFault _ hf, withSeq_of_noFault _ hf]
    split <;> rfl
  | some r => rw [settleSeq, andThen_of_fault _ hf, withSeq_of_fault _ hf]

/-- Settling `SEQ` writes over what `SEQ` was. -/
theorem settleSeq_withSeq (op : Instr) (k : Nat) (q : Seq) (s : State) :
    settleSeq op k (withSeq q s) = settleSeq op k s := by
  simp [settleSeq_eq]

/-- What one tick of a running operation does: its event, with what follows it, and the index's advance. -/
theorem sequencerTick_settleSeq {s : State} {op : Instr} {k : Nat} (h : IdleAfterFault s)
    (hk : k < eventCount s.cfg op) :
    sequencerTick (settleSeq op k s) =
      settleSeq op (k + 1) (runActions ((eventGroups (expansion s.cfg op)).getD k []) s) := by
  rw [settleSeq_eq, if_pos hk]
  cases hf : s.fault with
  | some r =>
    have hidle : s.seq = .idle := h (by simp [hf])
    rw [withSeq_of_fault _ hf, runActions_of_fault _ hf, settleSeq_eq, withSeq_of_fault _ hf, sequencerTick, hidle]
  | none =>
    have hbusy : sequencerTick (withSeq (.busy op k) s) =
        settleSeq op (k + 1) (runActions ((eventGroups (expansion s.cfg op)).getD k []) (withSeq (.busy op k) s)) := by
      rw [withSeq_of_noFault _ hf]
      rfl
    rw [hbusy, runActions_withSeq, settleSeq_withSeq]

/-- From event `k` on, the ticks that are left run the events that are left, and `SEQ` ends at Idle. -/
theorem sequencerRun_settleSeq {s : State} {op : Instr} {n k : Nat} (h : IdleAfterFault s)
    (hn : k + n = eventCount s.cfg op) :
    sequencerRun n (settleSeq op k s) =
      withSeq .idle (runActions ((eventGroups (expansion s.cfg op)).drop k).flatten s) := by
  induction n generalizing k s with
  | zero =>
    have hlast : ¬ k < eventCount s.cfg op := by omega
    have hdone : (eventGroups (expansion s.cfg op)).length ≤ k := by unfold eventCount at hn; omega
    rw [sequencerRun, settleSeq_eq, if_neg hlast, List.drop_of_length_le hdone]
    rfl
  | succ n ih =>
    have hk : k < (eventGroups (expansion s.cfg op)).length := by unfold eventCount at hn; omega
    rw [sequencerRun, sequencerTick_settleSeq h hk, ih (runActions_idleAfterFault _ h) (by rw [runActions_cfg]; omega),
      runActions_cfg, ← runActions_append, List.drop_eq_getElem_cons hk, List.flatten_cons, List.getD_eq_getElem _ _ hk]

/-- Settles O51: run without a pause, the expansion is the operation's body (`realises_expansion`); run event by event, it is the
same run with `SEQ` set beside it (`sequencerRun_settleSeq`). -/
theorem sequencerRefinesExec : Obligations.SequencerRefinesExec := by
  intro i s hstart
  obtain ⟨hfault, hidle⟩ := hstart
  have hs : withSeq .idle s = s := by rw [withSeq_of_noFault _ hfault, ← hidle]
  have hok : IdleAfterFault s := fun h => absurd hfault h
  have hrun : sequencerRun (eventCount s.cfg i) (beginOperation i s) = bodyOf i s := by
    calc sequencerRun (eventCount s.cfg i) (beginOperation i s)
        = withSeq .idle (runActions (expansion s.cfg i) s) := by
          rw [beginOperation, sequencerRun_settleSeq (runActions_idleAfterFault _ hok) (by simp), runActions_cfg,
            List.drop_zero, ← runActions_append, beforeFirstEvent_append_eventGroups]
      _ = runActions (expansion s.cfg i) s := by rw [← runActions_withSeq, hs]
      _ = bodyOf i s := realises_expansion s.cfg i s rfl hfault
  rw [hrun, exec_of_canStart i ⟨hfault, hidle⟩]

end Sys2Proof.Machine
end

section
/-! PROOFS. Two ways to show that an operation keeps a property, both with no fault at the start (60_exceptions.md R214): entry
by entry along its expansion (10_state.md R34), or part by part along its body (30_encoding.md R97). -/

namespace Sys2Proof.Machine

/-- From a state without a fault, `f` keeps `P`. -/
def Keeps (P : State → Prop) (f : State → State) : Prop := ∀ ⦃s⦄, s.fault = none → P s → P (f s)

/-- An operation with a next state has run its body, from a state in which it could start. -/
theorem exec_next {i : Instr} {s t : State} (h : exec i s = .next t) : CanStart s ∧ t = bodyOf i s := by
  rw [exec_eq_runOperation] at h
  exact runOperation_next h

/-- An operation with a next state has run its expansion. -/
theorem exec_next_runActions {i : Instr} {s t : State} (h : exec i s = .next t) :
    s.fault = none ∧ t = runActions (expansion s.cfg i) s := by
  obtain ⟨⟨hfault, -⟩, rfl⟩ := exec_next h
  exact ⟨hfault, (realises_expansion s.cfg i s rfl hfault).symm⟩

/-! Entry by entry. -/

/-- What each entry of a list keeps, the list keeps. -/
theorem runActions_keeps {P : State → Prop} {as : List Action} (h : ∀ a ∈ as, Keeps P a.effect) {s : State} (hs : P s) :
    P (runActions as s) := by
  induction as generalizing s with
  | nil => exact hs
  | cons a as ih =>
    cases hf : s.fault with
    | some r => rwa [runActions_of_fault _ hf]
    | none =>
      rw [runActions_cons _ _ hf]
      exact ih (fun b hb => h b (List.mem_cons_of_mem a hb)) (h a List.mem_cons_self hf hs)

/-- What one entry does: an entry check passes or raises its fault; the others are a line write, a delay, or the write of one
field. -/
theorem Action.effect_forms (a : Action) (s : State) :
    (a.isEvent = false ∧ (a.effect s = s ∨ ∃ r, a.effect s = raise r s)) ∨ (∃ l b, a = .setLine l b) ∨
      (∃ k t, a = .delay k t) ∨ (∃ cb, a = .writeAcc cb) ∨ (∃ d, a = .writeDState d) ∨ ∃ v, a = .returnValue v := by
  have check {c : Prop} {x : State} {r : FaultReason} (hpass : c → x = s) (hraise : ¬ c → x = raise r s) :
      x = s ∨ ∃ r, x = raise r s := (Classical.em c).imp hpass fun h => ⟨r, hraise h⟩
  cases a with
  | checkReady => exact .inl ⟨rfl, check (requireReady_pos id) (requireReady_neg id)⟩
  | checkUninitialized => exact .inl ⟨rfl, check (requireUninitialized_pos id) (requireUninitialized_neg id)⟩
  | checkLatched =>
    exact .inl ⟨rfl, check (requireLatched_pos id) fun h => requireLatched_neg id (not_not.1 h)⟩
  | checkComplete => exact .inl ⟨rfl, check (requireComplete_pos id) (requireComplete_neg id)⟩
  | setLine l b => exact .inr (.inl ⟨l, b, rfl⟩)
  | delay k t => exact .inr (.inr (.inl ⟨k, t, rfl⟩))
  | writeAcc cb => exact .inr (.inr (.inr (.inl ⟨cb, rfl⟩)))
  | writeDState d => exact .inr (.inr (.inr (.inr (.inl ⟨d, rfl⟩))))
  | returnValue v => exact .inr (.inr (.inr (.inr (.inr ⟨v, rfl⟩))))

/-- The host's queue is no part of the block. -/
@[simp] theorem Action.effect_calls (a : Action) (s : State) : (a.effect s).calls = s.calls := by
  obtain ⟨-, h | ⟨r, h⟩⟩ | ⟨l, b, rfl⟩ | ⟨k, t, rfl⟩ | ⟨cb, rfl⟩ | ⟨d, rfl⟩ | ⟨v, rfl⟩ := a.effect_forms s
  · rw [h]
  · rw [h, raise_calls]
  · exact setLine_calls l b s
  · rfl
  · rfl
  · rfl
  · rfl

/-- Only `DSTATE <- d` writes `DSTATE`. -/
theorem Action.effect_dstate {a : Action} (ha : ∀ d, .writeDState d ≠ a) (s : State) : (a.effect s).dstate = s.dstate := by
  obtain ⟨-, h | ⟨r, h⟩⟩ | ⟨l, b, rfl⟩ | ⟨k, t, rfl⟩ | ⟨cb, rfl⟩ | ⟨d, rfl⟩ | ⟨v, rfl⟩ := a.effect_forms s
  · rw [h]
  · rw [h, raise_dstate]
  · exact setLine_dstate l b s
  · rfl
  · rfl
  · exact absurd rfl (ha d)
  · rfl

@[simp] theorem runActions_calls (as : List Action) (s : State) : (runActions as s).calls = s.calls :=
  runActions_keeps (P := fun t => t.calls = s.calls) (fun a _ t _ ht => (a.effect_calls t).trans ht) rfl

theorem runActions_dstate {as : List Action} (h : ∀ d, .writeDState d ∉ as) (s : State) :
    (runActions as s).dstate = s.dstate :=
  runActions_keeps (P := fun t => t.dstate = s.dstate)
    (fun _ ha t _ ht => (Action.effect_dstate (fun d hd => h d (hd ▸ ha)) t).trans ht) rfl

/-! Part by part. -/

section Parts
variable {P : State → Prop} {f g : State → State}

theorem Keeps.andThen (hf : Keeps P f) (hg : Keeps P g) : Keeps P fun s => andThen (f s) g := by
  intro s hs h
  show P (Machine.andThen (f s) g)
  obtain ⟨hn, heq⟩ | ⟨r, -, heq⟩ := andThen_cases (f s) g
  · rw [heq]
    exact hg hn (hf hs h)
  · rw [heq]
    exact hf hs h

theorem Keeps.requireReady (hf : Keeps P f) (hraise : Keeps P (raise .notReady)) : Keeps P (requireReady f) := by
  intro s hs h
  by_cases hd : s.dstate = .ready
  · rw [requireReady_pos f hd]
    exact hf hs h
  · rw [requireReady_neg f hd]
    exact hraise hs h

theorem Keeps.requireUninitialized (hf : Keeps P f) (hraise : Keeps P (raise .reinit)) :
    Keeps P (requireUninitialized f) := by
  intro s hs h
  by_cases hd : s.dstate = .uninitialized
  · rw [requireUninitialized_pos f hd]
    exact hf hs h
  · rw [requireUninitialized_neg f hd]
    exact hraise hs h

/-! DisplayController reaches the link by `present` alone, with the ControlBytes that `CB` builds (R98, R125): what these and the
delays keep, its transfers keep. -/

variable (hpresent : ∀ n rs en, Keeps P (present (controlByte n rs en))) (hdelay : ∀ k t, Keeps P (delayFor k t))
include hpresent hdelay

theorem keeps_nibbleTransfer (n : Nibble) (rs : Level) : Keeps P (nibbleTransfer n rs) := by
  have hsettle : Keeps P fun s => delayFor .nibble s.cfg.tNibble s := fun s => hdelay .nibble s.cfg.tNibble (s := s)
  rw [funext (nibbleTransfer_eq n rs)]
  exact (hpresent n rs true).andThen ((hpresent n rs false).andThen hsettle)

theorem keeps_writeByte (v : Byte) (rs : Level) : Keeps P (writeByte v rs) := by
  have hnibble (n : Nibble) : Keeps P (nibbleTransfer n rs) := keeps_nibbleTransfer hpresent hdelay n rs
  have hexec : Keeps P fun s => delayFor .exec (execDelay s.cfg rs v) s :=
    fun s => hdelay .exec (execDelay s.cfg rs v) (s := s)
  exact (hnibble (highNibble v)).andThen ((hnibble (lowNibble v)).andThen hexec)

theorem keeps_writeCodes (hraise : Keeps P (raise .notReady)) (codes : List Byte) : Keeps P (writeCodes codes) := by
  induction codes with
  | nil => exact fun _ _ h => h
  | cons c cs ih => exact ((keeps_writeByte hpresent hdelay c true).requireReady hraise).andThen ih

theorem keeps_initSequence (hdstate : ∀ d, Keeps P fun s => { s with dstate := d }) : Keeps P initSequence := by
  have hstep (n : Nibble) (k : DelayKind) (t : Nat) : Keeps P (nibbleStep n k t) :=
    (keeps_nibbleTransfer hpresent hdelay n false).andThen (hdelay k t)
  have hbyte (v : Byte) : Keeps P (writeByte v false) := keeps_writeByte hpresent hdelay v false
  have hpowerOn (t : Nat) : Keeps P fun s => delayFor .powerOn t { s with dstate := .initializing } :=
    fun _ hs h => hdelay .powerOn t (by exact hs) (hdstate .initializing hs h)
  intro s
  let c := s.cfg
  have hsequence := (hpowerOn c.tPowerOn).andThen <| (hstep 0x3#4 .reset1 c.tReset1).andThen <|
    (hstep 0x3#4 .reset2 c.tReset2).andThen <| (hstep 0x3#4 .reset3 c.tReset3).andThen <|
    (hstep 0x2#4 .fourBit c.tFourBit).andThen <| (hbyte c.initFunctionSet).andThen <|
    (hbyte Config.initDisplayControl).andThen <| (hbyte Config.initEntryMode).andThen <|
    (hbyte Config.initClear).andThen (hdstate .ready)
  exact hsequence (s := s)

end Parts

end Sys2Proof.Machine
end

section
/-! PROOFS. `DSTATE` (10_state.md R23): only `initialise` writes it, at its start and after its last event. -/

namespace Sys2Proof.Machine

theorem writeDState_notMem_present (c : Config) (cb : Byte) (d : DState) : .writeDState d ∉ presentActions c cb := by
  simp [presentActions, sendActions, transmitActions, latchActions, cellActions]

theorem writeDState_notMem_nibble (c : Config) (n : Nibble) (rs : Level) (d : DState) :
    .writeDState d ∉ nibbleActions c n rs := by
  simp [nibbleActions, writeDState_notMem_present]

theorem writeDState_notMem_byte (c : Config) (v : Byte) (rs : Level) (d : DState) : .writeDState d ∉ byteActions c v rs := by
  simp [byteActions, writeDState_notMem_nibble]

/-- Only `initialise` writes `DSTATE`. -/
theorem writeDState_notMem_expansion (c : Config) {i : Instr} (hi : i ≠ .initialise) (d : DState) :
    .writeDState d ∉ expansion c i := by
  cases i with
  | initialise => exact absurd rfl hi
  | writeCommand v => simp [expansion, writeDState_notMem_byte]
  | writeData v => simp [expansion, writeDState_notMem_byte]
  | writeString codes => simp [expansion, writeDState_notMem_byte]
  | transmit b => simp [expansion, transmitActions, cellActions]
  | latch => simp [expansion, latchActions]
  | send b => simp [expansion, sendActions, transmitActions, latchActions, cellActions]
  | remap cb => simp [expansion]
  | nibble n rs => exact writeDState_notMem_nibble c n rs d
  | writeByte v rs => exact writeDState_notMem_byte c v rs d
  | delay k t => simp [expansion]
  | cbEn1 rs n => exact writeDState_notMem_present c _ d
  | cbEn0 rs n => exact writeDState_notMem_present c _ d

/-- The entries of `initialise` before its first event (R180). -/
def initHead : List Action := [.checkUninitialized, .writeDState .initializing]

/-- The entries of `initialise` between its two writes of `DSTATE`: the steps 1 to 9 (R181 to R187). -/
def initSteps (c : Config) : List Action :=
  .delay .powerOn c.tPowerOn ::
  (nibbleStepActions c 0x3#4 .reset1 c.tReset1 ++ nibbleStepActions c 0x3#4 .reset2 c.tReset2 ++
  nibbleStepActions c 0x3#4 .reset3 c.tReset3 ++ nibbleStepActions c 0x2#4 .fourBit c.tFourBit ++
  byteActions c c.initFunctionSet false ++ byteActions c Config.initDisplayControl false ++
  byteActions c Config.initEntryMode false ++ byteActions c Config.initClear false)

theorem initActions_eq_steps (c : Config) : initActions c = initHead ++ initSteps c ++ [.writeDState .ready] := by
  simp only [initActions_eq, initHead, initSteps, List.append_assoc, List.cons_append, List.nil_append]

theorem writeDState_notMem_initSteps (c : Config) (d : DState) : .writeDState d ∉ initSteps c := by
  simp [initSteps, nibbleStepActions, writeDState_notMem_nibble, writeDState_notMem_byte]

theorem runActions_initHead {s : State} (hf : s.fault = none) (hu : s.dstate = .uninitialized) :
    runActions initHead s = { s with dstate := .initializing } := by
  have hcheck : Action.checkUninitialized.effect s = s := requireUninitialized_pos id hu
  rw [initHead, runActions_cons _ _ hf, hcheck, runActions_cons _ _ hf]
  rfl

/-- From the first write of `DSTATE` on, the steps leave it at `Initializing`, whether or not a fault ends them. -/
theorem runActions_initSteps_dstate {s : State} {as : List Action} (hf : s.fault = none) (hu : s.dstate = .uninitialized)
    (has : as ⊆ initSteps s.cfg) : (runActions (initHead ++ as) s).dstate = .initializing := by
  rw [runActions_append, runActions_initHead hf hu]
  exact runActions_dstate (fun d hd => writeDState_notMem_initSteps s.cfg d (has hd)) _

/-- The last entry of `initialise` writes `Ready`, unless a fault has ended it. -/
theorem runActions_writeReady {s : State} (h : s.dstate = .initializing) :
    ((runActions [.writeDState .ready] s).fault = none ∧ (runActions [.writeDState .ready] s).dstate = .ready) ∨
      ((runActions [.writeDState .ready] s).fault ≠ none ∧
        (runActions [.writeDState .ready] s).dstate = .initializing) := by
  cases hf : s.fault with
  | none =>
    rw [runActions_cons _ _ hf]
    exact .inl ⟨hf, rfl⟩
  | some r =>
    rw [runActions_of_fault _ hf]
    exact .inr ⟨by simp [hf], h⟩

/-- `initialise` from `Uninitialized` ends in `Ready`, or a fault leaves it in `Initializing` (R188; log entry 16). -/
theorem initialiseDisplay_dstate {s : State} (hf : s.fault = none) (hu : s.dstate = .uninitialized) :
    ((initialiseDisplay s).fault = none ∧ (initialiseDisplay s).dstate = .ready) ∨
      ((initialiseDisplay s).fault ≠ none ∧ (initialiseDisplay s).dstate = .initializing) := by
  rw [← realises_initialise s.cfg s rfl hf, initActions_eq_steps, runActions_append]
  exact runActions_writeReady (runActions_initSteps_dstate hf hu fun _ h => h)

/-- Settles O49: an operation whose expansion writes no `DSTATE` leaves it, and `initialise` is the only other one. -/
theorem dStateTransitions : Obligations.DStateTransitions := by
  intro i s t h
  obtain ⟨⟨hf, -⟩, rfl⟩ := exec_next h
  by_cases hi : i = .initialise
  · subst hi
    by_cases hu : s.dstate = .uninitialized
    · obtain ⟨-, hready⟩ | ⟨hfault, hinit⟩ := initialiseDisplay_dstate hf hu
      · exact .inr ⟨rfl, hu, .inl hready⟩
      · exact .inr ⟨rfl, hu, .inr ⟨hinit, hfault⟩⟩
    · have hreinit : bodyOf .initialise s = raise .reinit s := requireUninitialized_neg _ hu
      exact .inl (by rw [hreinit, raise_dstate])
  · rw [← realises_expansion s.cfg i s rfl hf]
    exact .inl (runActions_dstate (writeDState_notMem_expansion s.cfg hi) s)

end Sys2Proof.Machine
end

section
/-! PROOFS. The invariant between operations (10_state.md R22, R23, R33; 40_serial_link.md R120 to R124; 60_exceptions.md R214). -/

namespace Sys2Proof.Machine

/-! The fault events of a trace (R214). -/

@[simp] theorem faultsOf_append (es fs : List Event) : faultsOf (es ++ fs) = faultsOf es ++ faultsOf fs :=
  List.filterMap_append

@[simp] theorem faultsOf_fault (r : FaultReason) : faultsOf [.fault r] = [r] := rfl

@[simp] theorem faultsOf_delay (k : DelayKind) (t : Nat) : faultsOf [.delay k t] = [] := rfl

@[simp] theorem faultsOf_cellEvents (bits : List Level) : faultsOf (cellEvents bits) = [] := by
  induction bits with
  | nil => rfl
  | cons b bs ih => exact ih

@[simp] theorem faultsOf_pulseEvents : faultsOf pulseEvents = [] := rfl

@[simp] theorem faultsOf_strobeEvents (w : Wiring) (old new : Byte) : faultsOf (strobeEvents w old new) = [] := by
  unfold strobeEvents
  split <;> rfl

theorem controlByte_legal (n : Nibble) (rs en : Level) : IsLegalControlByte (controlByte n rs en) := by
  revert n rs en
  decide

/-- `BlockInv` but for what it says of `DSTATE`, which `initialise` does not keep while it runs. -/
def BlockInvButDState (s : State) : Prop := BlockInv { s with dstate := .ready }

namespace BlockInvButDState

theorem of_blockInv {s : State} (h : BlockInv s) : BlockInvButDState s :=
  { legal := h.legal, idle := h.idle, whole := h.whole, clkLow := h.clkLow, accLegal := h.accLegal,
    settled := fun _ => by simp, recorded := h.recorded, latched := h.latched }

theorem blockInv {s : State} (h : BlockInvButDState s) (hd : s.fault = none → s.dstate ≠ .initializing) : BlockInv s :=
  { legal := h.legal, idle := h.idle, whole := h.whole, clkLow := h.clkLow, accLegal := h.accLegal,
    settled := hd, recorded := h.recorded, latched := h.latched }

theorem keeps_raise (r : FaultReason) : Keeps BlockInvButDState (raise r) := by
  intro s hs h
  have hnone : faultsOf s.trace = [] := by simpa [hs] using h.recorded
  exact { h with idle := rfl, settled := fun _ => by simp, recorded := by simp [hnone] }

theorem keeps_delayFor (k : DelayKind) (t : Nat) : Keeps BlockInvButDState (delayFor k t) :=
  fun _ _ h => { h with recorded := by simpa using h.recorded }

/-- A transmit starts only with the count at 0, and leaves it at 8. -/
theorem keeps_transmit (b : Byte) : Keeps BlockInvButDState (transmit b) := by
  intro s hs h
  by_cases hwait : s.linkcnt = 8
  · rw [transmit_unlatched b hwait]
    exact keeps_raise _ hs h
  · rw [transmit_eq b ⟨hwait, h.clkLow⟩]
    exact { h with whole := .inr rfl, clkLow := rfl, recorded := by simpa using h.recorded,
                   latched := fun h0 => absurd h0 (by decide : ¬ (8 : Fin 9) = 0) }

/-- A latch starts only with the count at 8, and leaves it at 0 with the stages on the outputs. -/
theorem keeps_latch : Keeps BlockInvButDState latch := by
  intro s hs h
  by_cases hwait : s.linkcnt = 8
  · rw [latch_eq hwait, latchPulse_eq]
    exact { h with whole := .inl rfl, recorded := by simpa using h.recorded, latched := fun _ _ => rfl }
  · rw [latch_partial hwait]
    exact keeps_raise _ hs h

theorem keeps_send (b : Byte) : Keeps BlockInvButDState (send b) := (keeps_transmit b).andThen keeps_latch

theorem keeps_present (n : Nibble) (rs en : Level) : Keeps BlockInvButDState (present (controlByte n rs en)) :=
  fun s hs h => keeps_send (remapFrame s.cfg.wiring (controlByte n rs en)) (by exact hs)
    { h with accLegal := controlByte_legal n rs en }

theorem keeps_writeDState (d : DState) : Keeps BlockInvButDState fun s => { s with dstate := d } := fun _ _ h => h

/-- Every operation keeps it. -/
theorem keeps_bodyOf (i : Instr) : Keeps BlockInvButDState (bodyOf i) := by
  have hbyte (v : Byte) (rs : Level) : Keeps BlockInvButDState (writeByte v rs) :=
    keeps_writeByte keeps_present keeps_delayFor v rs
  cases i with
  | initialise =>
    exact (keeps_initSequence keeps_present keeps_delayFor keeps_writeDState).requireUninitialized (keeps_raise _)
  | writeCommand v => exact (hbyte v false).requireReady (keeps_raise _)
  | writeData v => exact (hbyte v true).requireReady (keeps_raise _)
  | writeString codes =>
    exact (keeps_writeCodes keeps_present keeps_delayFor (keeps_raise _) codes).requireReady (keeps_raise _)
  | transmit b => exact keeps_transmit b
  | latch => exact keeps_latch
  | send b => exact keeps_send b
  | remap cb => exact fun _ _ h => { h with }
  | nibble n rs => exact keeps_nibbleTransfer keeps_present keeps_delayFor n rs
  | writeByte v rs => exact hbyte v rs
  | delay k t => exact keeps_delayFor k t
  | cbEn1 rs n => exact keeps_present n rs true
  | cbEn0 rs n => exact keeps_present n rs false

end BlockInvButDState

/-- Every operation keeps the invariant between operations: what `DSTATE` adds to `BlockInvButDState` is its transitions. -/
theorem exec_keeps_blockInv {i : Instr} {s t : State} (h : exec i s = .next t) (hs : BlockInv s) : BlockInv t := by
  obtain ⟨⟨hf, -⟩, ht⟩ := exec_next h
  have hrest : BlockInvButDState t := ht ▸ BlockInvButDState.keeps_bodyOf i hf (.of_blockInv hs)
  apply hrest.blockInv
  intro hnone
  obtain hsame | ⟨-, -, hready | ⟨-, hfault⟩⟩ := dStateTransitions i s t h
  · rw [hsame]
    exact hs.settled hf
  · simp [hready]
  · exact absurd hnone hfault

/-- Settles O45: a step between operations changes nothing or runs one operation, with its call taken from the queue. -/
theorem stepKeepsBlockInv : Obligations.StepKeepsBlockInv := by
  intro s t hs h
  obtain ⟨-, -, ⟨op, i, hbusy, -⟩ | ⟨-, -, rfl⟩ | ⟨-, call, rest, op, -, -, -, hexec⟩⟩ := step_next h
  · exact absurd (hs.idle.symm.trans hbusy) (by simp)
  · exact hs
  · exact exec_keeps_blockInv hexec { hs with }

end Sys2Proof.Machine
end

section
/-! PROOFS. The line writes (10_state.md R28 to R30), what belongs to which component (R20, R22; 40_serial_link.md R125), and
what every operation and every step leaves: the configuration, the queue, the old trace (R31, R38). -/

namespace Sys2Proof.Machine

/-! The line writes. -/

/-- Settles O10: the edge is `clkRise`, and with CLK low a list of bit cells folds it over its bits. -/
theorem clockEdgeShiftsStage : Obligations.ClockEdgeShiftsStage := by
  refine ⟨fun s hlow => setLine_clk_rise hlow, fun c => rfl, fun s b hlow => ?_⟩
  rw [shiftOut_eq _ _ hlow]
  exact ⟨shiftIn_bitsOf b s.stage, countEdge_eight b s.linkcnt⟩

/-- Settles O11: the write is `latchRise` after the event and the level. -/
theorem latchEdgeUpdatesOutputs : Obligations.LatchEdgeUpdatesOutputs := fun _ hlow => setLine_latch_rise hlow

/-- A line write that is no rising edge of CLK or LATCH sets the level and appends its event (R30). -/
theorem setLine_of_noRise {s : State} {l : Line} {b : Level} (hclk : ¬ (l = .clk ∧ s.line.clk = false ∧ b = true))
    (hlatch : ¬ (l = .latch ∧ s.line.latch = false ∧ b = true)) :
    setLine l b s = { s with trace := s.trace ++ [.lineWrite l b], line := s.line.set l b } := by
  cases l with
  | data => exact setLine_data b s
  | clk =>
    cases b with
    | false => exact setLine_clk_low s
    | true => exact setLine_clk_held (by simpa using hclk)
  | latch =>
    cases b with
    | false => exact setLine_latch_low s
    | true => exact setLine_latch_held (by simpa using hlatch)

/-- Only a LATCH write can change the outputs (R29). -/
theorem setLine_out {l : Line} (hl : l ≠ .latch) (b : Level) (s : State) : (setLine l b s).out = s.out := by
  by_cases hrise : l = .clk ∧ s.line.clk = false ∧ b = true
  · obtain ⟨rfl, hlow, rfl⟩ := hrise
    rw [setLine_clk_rise hlow]
    rfl
  · rw [setLine_of_noRise hrise fun h => hl h.1]

/-- Settles O12: a write that is no rising edge has no edge effect, and the effect of a CLK edge leaves the outputs. -/
theorem otherLineWritesOnlySetLevel : Obligations.OtherLineWritesOnlySetLevel :=
  ⟨fun _ _ _ => setLine_of_noRise, fun s _ b hl => setLine_out hl b s⟩

/-- A line write appends its own event first, and at most the strobe that it causes after it (R29, R62). -/
theorem setLine_trace (l : Line) (b : Level) (s : State) :
    (setLine l b s).trace = s.trace ++ [.lineWrite l b] ∨
      (setLine l b s).trace = s.trace ++ .lineWrite l b :: strobeEvents s.cfg.wiring s.out s.stage := by
  by_cases hclk : l = .clk ∧ s.line.clk = false ∧ b = true
  · obtain ⟨rfl, hlow, rfl⟩ := hclk
    rw [setLine_clk_rise hlow]
    exact .inl rfl
  by_cases hlatch : l = .latch ∧ s.line.latch = false ∧ b = true
  · obtain ⟨rfl, hlow, rfl⟩ := hlatch
    rw [setLine_latch_rise hlow, latchRise_eq]
    exact .inr (by simp)
  · rw [setLine_of_noRise hclk hlatch]
    exact .inl rfl

/-! What SerialLink leaves. -/

theorem shiftOut_dstate (bits : List Level) (s : State) : (shiftOut bits s).dstate = s.dstate := by
  induction bits generalizing s with
  | nil => rfl
  | cons b bs ih => simp [shiftOut, ih, bitCell]

theorem shiftOut_out (bits : List Level) (s : State) : (shiftOut bits s).out = s.out := by
  induction bits generalizing s with
  | nil => rfl
  | cons b bs ih => simp [shiftOut, ih, bitCell, setLine_out]

theorem transmit_frame (b : Byte) (s : State) :
    (transmit b s).acc = s.acc ∧ (transmit b s).dstate = s.dstate ∧ (transmit b s).out = s.out := by
  by_cases hwait : s.linkcnt = 8
  · rw [transmit_unlatched b hwait]
    exact ⟨rfl, rfl, rfl⟩
  · rw [transmit, requireLatched_pos _ hwait]
    exact ⟨shiftOut_acc _ s, shiftOut_dstate _ s, shiftOut_out _ s⟩

theorem latch_frame (s : State) : (latch s).acc = s.acc ∧ (latch s).dstate = s.dstate ∧ (latch s).stage = s.stage := by
  by_cases hwait : s.linkcnt = 8
  · rw [latch_eq hwait, latchPulse_eq]
    exact ⟨rfl, rfl, rfl⟩
  · rw [latch_partial hwait]
    exact ⟨rfl, rfl, rfl⟩

theorem send_dstate (b : Byte) (s : State) : (send b s).dstate = s.dstate := by
  obtain ⟨-, htransmit, -⟩ := transmit_frame b s
  obtain ⟨-, hlatch, -⟩ := latch_frame (transmit b s)
  obtain ⟨-, h⟩ | ⟨r, -, h⟩ := andThen_cases (transmit b s) latch
  · rw [send, h, hlatch, htransmit]
  · rw [send, h, htransmit]

/-- Settles O50: each operation that is spoken of is its body, whose frame the lemmas above give. -/
theorem ownershipOfState : Obligations.OwnershipOfState := by
  intro s t
  refine ⟨fun b h => ?_, fun h => ?_, fun b h => ?_, fun cb h => ?_, fun k d h => ?_⟩ <;> obtain ⟨-, rfl⟩ := exec_next h
  · exact transmit_frame b s
  · exact latch_frame s
  · exact ⟨send_acc b s, send_dstate b s⟩
  · exact ⟨rfl, rfl, rfl, rfl, rfl, rfl, rfl⟩
  · exact ⟨rfl, rfl, rfl, rfl, rfl, rfl⟩

/-! The trace of one entry, and of a list of them. -/

/-- Events that accompany a primitive event: strobes and faults, no line write and no delay. -/
def NoPrimitive (es : List Event) : Prop := lineWritesOf es = [] ∧ delaysOf es = []

theorem noPrimitive_nil : NoPrimitive [] := ⟨rfl, rfl⟩

theorem noPrimitive_fault (r : FaultReason) : NoPrimitive [.fault r] := ⟨rfl, rfl⟩

theorem noPrimitive_strobeEvents (w : Wiring) (old new : Byte) : NoPrimitive (strobeEvents w old new) := by
  unfold strobeEvents
  split <;> exact ⟨rfl, rfl⟩

theorem NoPrimitive.append {es fs : List Event} (he : NoPrimitive es) (hf : NoPrimitive fs) : NoPrimitive (es ++ fs) := by
  obtain ⟨hel, hed⟩ := he
  obtain ⟨hfl, hfd⟩ := hf
  constructor
  · rw [lineWritesOf, List.filterMap_append]
    exact List.append_eq_nil_iff.2 ⟨hel, hfl⟩
  · rw [delaysOf, List.filterMap_append]
    exact List.append_eq_nil_iff.2 ⟨hed, hfd⟩

/-- A primitive event: `LineWrite` or `Delay` (R34; log entry 20). -/
def IsPrimitive (e : Event) : Prop := (∃ l b, e = .lineWrite l b) ∨ ∃ k d, e = .delay k d

/-- An entry that is an event appends that event, with the strobe that it causes. -/
theorem Action.effect_trace_event {a : Action} (ha : a.isEvent = true) (s : State) :
    ∃ e es, (a.effect s).trace = s.trace ++ e :: es ∧ IsPrimitive e ∧ NoPrimitive es := by
  obtain ⟨hno, -⟩ | ⟨l, b, rfl⟩ | ⟨k, d, rfl⟩ | ⟨cb, rfl⟩ | ⟨d, rfl⟩ | ⟨v, rfl⟩ := a.effect_forms s
  · simp [hno] at ha
  · obtain h | h := setLine_trace l b s
    · exact ⟨_, _, h, .inl ⟨l, b, rfl⟩, noPrimitive_nil⟩
    · exact ⟨_, _, h, .inl ⟨l, b, rfl⟩, noPrimitive_strobeEvents _ _ _⟩
  · exact ⟨_, _, rfl, .inr ⟨k, d, rfl⟩, noPrimitive_nil⟩
  · cases ha
  · cases ha
  · cases ha

/-- An entry that is no event appends at most the fault that it raises. -/
theorem Action.effect_trace_noEvent {a : Action} (ha : a.isEvent = false) (s : State) :
    ∃ es, (a.effect s).trace = s.trace ++ es ∧ NoPrimitive es := by
  obtain ⟨-, h | ⟨r, h⟩⟩ | ⟨l, b, rfl⟩ | ⟨k, d, rfl⟩ | ⟨cb, rfl⟩ | ⟨d, rfl⟩ | ⟨v, rfl⟩ := a.effect_forms s
  · exact ⟨[], by simp [h], noPrimitive_nil⟩
  · exact ⟨[.fault r], by simp [h], noPrimitive_fault r⟩
  · cases ha
  · cases ha
  · exact ⟨[], by simp [effect], noPrimitive_nil⟩
  · exact ⟨[], by simp [effect], noPrimitive_nil⟩
  · exact ⟨[], by simp [effect], noPrimitive_nil⟩

theorem runActions_trace_noEvent {as : List Action} (h : ∀ a ∈ as, a.isEvent = false) (s : State) :
    ∃ es, (runActions as s).trace = s.trace ++ es ∧ NoPrimitive es := by
  refine runActions_keeps (P := fun t => ∃ es, t.trace = s.trace ++ es ∧ NoPrimitive es) ?_ ⟨[], by simp, noPrimitive_nil⟩
  rintro a ha t - ⟨es, htrace, hes⟩
  obtain ⟨fs, hmore, hfs⟩ := Action.effect_trace_noEvent (h a ha) t
  exact ⟨es ++ fs, by simp [hmore, htrace], hes.append hfs⟩

theorem Action.effect_trace_prefix (a : Action) (s : State) : s.trace <+: (a.effect s).trace := by
  cases ha : a.isEvent with
  | true =>
    obtain ⟨e, es, h, -⟩ := Action.effect_trace_event ha s
    exact ⟨e :: es, h.symm⟩
  | false =>
    obtain ⟨es, h, -⟩ := Action.effect_trace_noEvent ha s
    exact ⟨es, h.symm⟩

theorem runActions_trace_prefix (as : List Action) (s : State) : s.trace <+: (runActions as s).trace :=
  runActions_keeps (P := fun t => s.trace <+: t.trace) (fun a _ t _ ht => ht.trans (a.effect_trace_prefix t))
    (List.prefix_refl _)

/-! One tick. -/

@[simp] theorem withSeq_trace (q : Seq) (s : State) : (withSeq q s).trace = s.trace := by
  cases h : s.fault with
  | none => rw [withSeq_of_noFault q h]
  | some r => rw [withSeq_of_fault q h]

@[simp] theorem withSeq_dstate (q : Seq) (s : State) : (withSeq q s).dstate = s.dstate := by
  cases h : s.fault with
  | none => rw [withSeq_of_noFault q h]
  | some r => rw [withSeq_of_fault q h]

@[simp] theorem withSeq_fault (q : Seq) (s : State) : (withSeq q s).fault = s.fault := by
  cases h : s.fault with
  | none => rw [withSeq_of_noFault q h, h]
  | some r => rw [withSeq_of_fault q h, h]

@[simp] theorem settleSeq_cfg (op : Instr) (k : Nat) (s : State) : (settleSeq op k s).cfg = s.cfg := by
  rw [settleSeq_eq, withSeq_cfg]

@[simp] theorem settleSeq_trace (op : Instr) (k : Nat) (s : State) : (settleSeq op k s).trace = s.trace := by
  rw [settleSeq_eq, withSeq_trace]

@[simp] theorem settleSeq_dstate (op : Instr) (k : Nat) (s : State) : (settleSeq op k s).dstate = s.dstate := by
  rw [settleSeq_eq, withSeq_dstate]

@[simp] theorem settleSeq_fault (op : Instr) (k : Nat) (s : State) : (settleSeq op k s).fault = s.fault := by
  rw [settleSeq_eq, withSeq_fault]

theorem settleSeq_busy {op : Instr} {k : Nat} {s : State} (hf : s.fault = none) (hk : k < eventCount s.cfg op) :
    (settleSeq op k s).seq = .busy op k := by
  rw [settleSeq_eq, if_pos hk, withSeq_of_noFault _ hf]

theorem settleSeq_idle {op : Instr} {k : Nat} {s : State} (hf : s.fault = none) (hk : eventCount s.cfg op ≤ k) :
    (settleSeq op k s).seq = .idle := by
  rw [settleSeq_eq, if_neg (Nat.not_lt.2 hk), withSeq_of_noFault _ hf]

/-- A tick of a running operation runs the event that `SEQ` names, with what follows it (R34). -/
theorem sequencerTick_of_busy {s : State} {op : Instr} {i : Nat} (h : s.seq = .busy op i) :
    sequencerTick s = settleSeq op (i + 1) (runActions ((eventGroups (expansion s.cfg op)).getD i []) s) := by
  simp only [sequencerTick, h]

/-! Every operation and every step. -/

/-- Settles O47: no entry of an expansion takes an event from the trace, and a tick runs entries of one. -/
theorem traceOnlyGrows : Obligations.TraceOnlyGrows := by
  have hexec {i : Instr} {s t : State} (h : exec i s = .next t) : s.trace <+: t.trace := by
    obtain ⟨-, rfl⟩ := exec_next_runActions h
    exact runActions_trace_prefix _ s
  have hstep {s t : State} (h : step s = .next t) : s.trace <+: t.trace := by
    obtain ⟨-, -, ⟨op, i, hbusy, rfl⟩ | ⟨-, -, rfl⟩ | ⟨-, call, rest, op, -, -, -, hop⟩⟩ := step_next h
    · rw [sequencerTick_of_busy hbusy, settleSeq_trace]
      exact runActions_trace_prefix _ s
    · exact List.prefix_refl _
    · have hgrows := hexec hop
      exact hgrows
  exact ⟨fun i s t h => (hexec h).imp fun _ => Eq.symm, fun s t h => (hstep h).imp fun _ => Eq.symm⟩

/-- Settles O48: no entry of an expansion writes the configuration or the queue, and a tick runs entries of one. -/
theorem configurationIsFixed : Obligations.ConfigurationIsFixed := by
  have hexec {i : Instr} {s t : State} (h : exec i s = .next t) : t.cfg = s.cfg ∧ t.calls = s.calls := by
    obtain ⟨-, rfl⟩ := exec_next_runActions h
    exact ⟨runActions_cfg _ s, runActions_calls _ s⟩
  refine ⟨fun i s t => hexec, fun s t h => ?_⟩
  obtain ⟨-, -, ⟨op, i, hbusy, rfl⟩ | ⟨-, -, rfl⟩ | ⟨-, call, rest, op, -, -, -, hop⟩⟩ := step_next h
  · rw [sequencerTick_of_busy hbusy, settleSeq_cfg, runActions_cfg]
  · rfl
  · exact (hexec hop).1

end Sys2Proof.Machine
end

section
/-! PROOFS. Event by event (10_state.md R34; log entry 20): each tick is one primitive event, and what a run of ticks from the
start of an operation has run. -/

namespace Sys2Proof.Machine

/-! The cut of an expansion at its events. -/

theorem beforeFirstEvent_noEvent (as : List Action) : ∀ a ∈ beforeFirstEvent as, a.isEvent = false := by
  intro a ha
  simpa using List.mem_takeWhile_imp ha

/-- Each group is one event and entries that are none. -/
theorem eventGroups_mem {as g : List Action} (h : g ∈ eventGroups as) :
    ∃ a rest, g = a :: rest ∧ a.isEvent = true ∧ ∀ b ∈ rest, b.isEvent = false := by
  induction as with
  | nil => cases h
  | cons a as ih =>
    cases ha : a.isEvent with
    | false => exact ih (by simpa [eventGroups, ha] using h)
    | true =>
      obtain rfl | hmem : g = a :: beforeFirstEvent as ∨ g ∈ eventGroups as := by simpa [eventGroups, ha] using h
      · exact ⟨a, _, rfl, ha, beforeFirstEvent_noEvent as⟩
      · exact ih hmem

/-- The number of groups is the number of events. -/
theorem eventGroups_length (as : List Action) : (eventGroups as).length = as.countP Action.isEvent := by
  induction as with
  | nil => rfl
  | cons a as ih => cases ha : a.isEvent <;> simp [eventGroups, ha, ih]

/-- Settles O52: the tick runs one group, whose first entry alone is an event; `settleSeq` then sets the index. -/
theorem sequencerAdvancesByOneEvent : Obligations.SequencerAdvancesByOneEvent := by
  intro s op i hbusy hf hi
  obtain ⟨a, rest, hgroup, ha, hrest⟩ := eventGroups_mem (List.getElem_mem hi)
  have htick : sequencerTick s = settleSeq op (i + 1) (runActions (a :: rest) s) := by
    rw [sequencerTick_of_busy hbusy, List.getD_eq_getElem _ _ hi, hgroup]
  have hidle : IdleAfterFault (runActions (a :: rest) s) := runActions_idleAfterFault _ fun h => absurd hf h
  rw [htick, settleSeq_trace, settleSeq_fault]
  refine ⟨?_, fun hfault => ?_, fun hnone hlt => ?_, fun hnone hlast => ?_⟩
  · obtain ⟨e, es, hevent, he, hes⟩ := Action.effect_trace_event ha s
    obtain ⟨fs, hafter, hfs⟩ := runActions_trace_noEvent hrest (a.effect s)
    exact ⟨e, es ++ fs, by rw [runActions_cons _ _ hf, hafter, hevent]; simp, he, hes.append hfs⟩
  · obtain ⟨r, hr⟩ := Option.ne_none_iff_exists'.1 hfault
    rw [settleSeq_eq, withSeq_of_fault _ hr]
    exact hidle hfault
  · exact settleSeq_busy hnone (by rwa [runActions_cfg])
  · exact settleSeq_idle hnone (by rw [runActions_cfg, hlast])

/-! A run of ticks. -/

theorem sequencerRun_succ (n : Nat) (s : State) : sequencerRun (n + 1) s = sequencerTick (sequencerRun n s) := by
  induction n generalizing s with
  | zero => rfl
  | succ n ih => exact ih (sequencerTick s)

/-- The entries of an expansion up to its event number `k`, which is not among them. -/
def throughEvents (k : Nat) (as : List Action) : List Action := beforeFirstEvent as ++ ((eventGroups as).take k).flatten

theorem throughEvents_append (k : Nat) (as : List Action) :
    throughEvents k as ++ ((eventGroups as).drop k).flatten = as := by
  rw [throughEvents, List.append_assoc, ← List.flatten_append, List.take_append_drop, beforeFirstEvent_append_eventGroups]

/-- After `k` ticks an operation has run its entries up to event `k`, and `SEQ` stands there. -/
theorem sequencerRun_beginOperation {s : State} {op : Instr} {k : Nat} (hf : s.fault = none)
    (hk : k ≤ eventCount s.cfg op) :
    sequencerRun k (beginOperation op s) = settleSeq op k (runActions (throughEvents k (expansion s.cfg op)) s) := by
  induction k with
  | zero => simp [sequencerRun, beginOperation, throughEvents]
  | succ k ih =>
    have hidle : IdleAfterFault (runActions (throughEvents k (expansion s.cfg op)) s) :=
      runActions_idleAfterFault _ fun h => absurd hf h
    rw [sequencerRun_succ, ih (Nat.le_of_succ_le hk), sequencerTick_settleSeq hidle (by rwa [runActions_cfg]),
      runActions_cfg, ← runActions_append, throughEvents, List.append_assoc, List.getD_eq_getElem _ _ hk,
      ← List.flatten_concat, List.take_concat_get' _ _ hk, ← throughEvents]

end Sys2Proof.Machine
end

section
/-! PROOFS. `initialise` event by event (10_state.md R23; 43_lcd_init.md R188, R191; log entry 20): no fault when the link is
open, 645 events, and `DSTATE` at each of them. -/

namespace Sys2Proof.Machine

/-! No fault, from an open link. -/

/-- A send can start, and will raise no fault. -/
def SendReady (s : State) : Prop := s.fault = none ∧ LinkOpen s

/-- A send leaves the link open for the next one (R120, R124). -/
theorem send_keeps_sendReady (b : Byte) : Keeps SendReady (send b) := by
  intro s hs h
  rw [send_eq b hs h.2]
  exact ⟨hs, (by decide : ¬ (0 : Fin 9) = 8), rfl⟩

/-- `initialise` over an open link raises no fault but `REINIT`. -/
theorem initialiseDisplay_noFault {s : State} (hf : s.fault = none) (hopen : LinkOpen s) (hu : s.dstate = .uninitialized) :
    (initialiseDisplay s).fault = none := by
  have hpresent (n : Nibble) (rs en : Level) : Keeps SendReady (present (controlByte n rs en)) :=
    fun s hs h => send_keeps_sendReady (remapFrame s.cfg.wiring (controlByte n rs en)) (by exact hs) h
  have hsequence : Keeps SendReady initSequence := keeps_initSequence hpresent (fun _ _ _ _ h => h) fun _ _ _ h => h
  rw [initialiseDisplay, requireUninitialized_pos _ hu]
  exact (hsequence hf ⟨hf, hopen⟩).1

/-- A run that ends without a fault had none before (R33, R214). -/
theorem noFault_of_runActions_append {as bs : List Action} {s : State} (h : (runActions (as ++ bs) s).fault = none) :
    (runActions as s).fault = none := by
  rw [runActions_append] at h
  cases hf : (runActions as s).fault with
  | none => rfl
  | some r => rw [runActions_of_fault bs hf, hf] at h; cases h

/-! The number of events (R189: 624 line writes and 21 delays). -/

theorem presentActions_events (c : Config) (cb : Byte) : (presentActions c cb).countP Action.isEvent = 26 := rfl

theorem nibbleActions_events (c : Config) (n : Nibble) (rs : Level) : (nibbleActions c n rs).countP Action.isEvent = 53 := by
  simp [nibbleActions, presentActions_events, Action.isEvent]

theorem byteActions_events (c : Config) (v : Byte) (rs : Level) : (byteActions c v rs).countP Action.isEvent = 107 := by
  simp [byteActions, nibbleActions_events, Action.isEvent]

theorem eventCount_initialise (c : Config) : eventCount c .initialise = 645 := by
  simp [eventCount, eventGroups_length, expansion, initActions, List.countP_cons, nibbleActions_events, byteActions_events,
    Action.isEvent]

/-! Between the first and the last entry. -/

/-- While an event is still to come, not all entries have run. -/
theorem throughEvents_ne {k : Nat} {as : List Action} (hk : k < (eventGroups as).length) : throughEvents k as ≠ as := by
  intro hall
  obtain ⟨a, rest, hgroup, -⟩ := eventGroups_mem (List.getElem_mem hk)
  have hleft := throughEvents_append k as
  rw [hall, List.append_right_eq_self, List.drop_eq_getElem_cons hk, hgroup] at hleft
  simp at hleft

/-- Until its last event has run, `initialise` has run its head and some of its steps. -/
theorem throughEvents_initialise {c : Config} {k : Nat} (hk : k < eventCount c .initialise) :
    ∃ as, as ⊆ initSteps c ∧ throughEvents k (initActions c) = initHead ++ as := by
  have hhead : beforeFirstEvent (initActions c) = initHead := rfl
  have hprefix : throughEvents k (initActions c) <+: initHead ++ initSteps c ++ [.writeDState .ready] :=
    ⟨_, (throughEvents_append k _).trans (initActions_eq_steps c)⟩
  rw [List.prefix_concat_iff, ← initActions_eq_steps] at hprefix
  have hsteps := hprefix.resolve_left (throughEvents_ne hk)
  rw [throughEvents, hhead] at hsteps ⊢
  exact ⟨_, ((List.prefix_append_right_inj initHead).1 hsteps).subset, rfl⟩

/-- Settles O34: before event `k` the run is `initHead` and steps that write no `DSTATE`; the whole run is the operation's. -/
theorem initializingThroughoutInitialize : Obligations.InitializingThroughoutInitialize := by
  intro s ⟨hf, hidle⟩ hopen hu
  have hnone (k : Nat) : (runActions (throughEvents k (initActions s.cfg)) s).fault = none := by
    refine noFault_of_runActions_append (bs := ((eventGroups (initActions s.cfg)).drop k).flatten) ?_
    rw [throughEvents_append, realises_initialise s.cfg s rfl hf]
    exact initialiseDisplay_noFault hf hopen hu
  have hrun {k : Nat} (hk : k ≤ eventCount s.cfg .initialise) :
      sequencerRun k (beginOperation .initialise s) =
        settleSeq .initialise k (runActions (throughEvents k (initActions s.cfg)) s) := sequencerRun_beginOperation hf hk
  refine ⟨fun k hk => ?_, ?_, ?_, eventCount_initialise s.cfg⟩
  · obtain ⟨as, has, hthrough⟩ := throughEvents_initialise hk
    rw [hrun hk.le]
    constructor
    · rw [settleSeq_dstate, hthrough]
      exact runActions_initSteps_dstate hf hu has
    · exact settleSeq_busy (hnone k) (by rwa [runActions_cfg])
  · have hexec : exec .initialise s = .next (initialiseDisplay s) := exec_of_canStart _ ⟨hf, hidle⟩
    rw [← Host.Outcome.next.inj (hexec.symm.trans (sequencerRefinesExec .initialise s ⟨hf, hidle⟩))]
    obtain ⟨-, hready⟩ | ⟨hfault, -⟩ := initialiseDisplay_dstate hf hu
    · exact hready
    · exact absurd (initialiseDisplay_noFault hf hopen hu) hfault
  · rw [hrun le_rfl]
    exact settleSeq_idle (hnone _) (by rw [runActions_cfg])

end Sys2Proof.Machine
end

section
/-! PROOFS. The device boundary (20_memory.md R62, R63) and the display's reception of strobes (R67, R68). -/

namespace Sys2Proof.Machine

/-! The device edge. -/

/-- The device's D7..D4 are the outputs that `WIRING` gives to the ControlByte bits 3..0 (R61). -/
theorem deviceNibble_getLsbD (w : Wiring) (out : Byte) :
    (deviceNibble w out).getLsbD 0 = bitAt out (w.line 0) ∧ (deviceNibble w out).getLsbD 1 = bitAt out (w.line 1) ∧
      (deviceNibble w out).getLsbD 2 = bitAt out (w.line 2) ∧ (deviceNibble w out).getLsbD 3 = bitAt out (w.line 3) := by
  simp only [deviceNibble, Wiring.line]
  generalize bitAt out w.d4 = b0, bitAt out w.d5 = b1, bitAt out w.d6 = b2, bitAt out w.d7 = b3
  revert b0 b1 b2 b3
  decide

/-- Settles O13: an EN fall is the condition of `deviceEdge`, and the nibble is the one on the device's D7..D4. -/
theorem deviceSamplesOnEnFall : Obligations.DeviceSamplesOnEnFall :=
  ⟨fun _ new s hold hnew => ⟨deviceNibble s.cfg.wiring new, deviceNibble_getLsbD _ new, if_pos ⟨hold, hnew⟩⟩,
    fun _ _ _ hno => if_neg hno⟩

/-! Reception, mode by mode (R67). -/

theorem deviceReceive_eight {d : Device} (rs : Level) (n : Nibble) (h : d.mode = .eight) :
    deviceReceive rs false n d =
      { mode := modeAfterByte rs n .eight
        executed := d.executed ++ [{ rs := rs, byte := n ++ Config.deviceLowNibble d.draws }]
        draws := d.draws + 1 } := by
  simp [deviceReceive, deviceWrite, h]

theorem deviceReceive_fourHi {d : Device} (rs : Level) (n : Nibble) (h : d.mode = .fourHi) :
    deviceReceive rs false n d = { d with mode := .fourLo n } := by
  simp [deviceReceive, deviceWrite, h]

theorem deviceReceive_fourLo {d : Device} {high : Nibble} (rs : Level) (n : Nibble) (h : d.mode = .fourLo high) :
    deviceReceive rs false n d =
      { d with
        mode := modeAfterByte rs high .fourHi
        executed := d.executed ++ [{ rs := rs, byte := high ++ n }] } := by
  simp [deviceReceive, deviceWrite, h]

/-- Settles O37: the reception of each mode; in `Eight` the low half is the device's draw. -/
theorem deviceReception : Obligations.DeviceReception := by
  refine fun d rs n => ⟨fun h => ?_, deviceReceive_fourHi rs n, fun _ => deviceReceive_fourLo rs n⟩
  rw [deviceReceive_eight rs n h]
  exact ⟨⟨Config.deviceLowNibble d.draws, rfl⟩, rfl⟩

/-- The reception mode after a strobe with RW = 0 (R67). -/
def modeAfterStrobe (rs : Level) (n : Nibble) : DeviceMode → DeviceMode
  | .eight => modeAfterByte rs n .eight
  | .fourHi => .fourLo n
  | .fourLo h => modeAfterByte rs h .fourHi

theorem deviceReceive_mode (rs : Level) (n : Nibble) (d : Device) :
    (deviceReceive rs false n d).mode = modeAfterStrobe rs n d.mode := by
  cases h : d.mode with
  | eight => rw [deviceReceive_eight rs n h]; rfl
  | fourHi => rw [deviceReceive_fourHi rs n h]; rfl
  | fourLo high => rw [deviceReceive_fourLo rs n h]; rfl

/-- The low nibble completes the byte of the high nibble `h`: no nibble waits afterwards. -/
theorem modeAfterStrobe_fourLo (rs : Level) (n h : Nibble) :
    modeAfterStrobe rs n (.fourLo h) = .eight ∨ modeAfterStrobe rs n (.fourLo h) = .fourHi := by
  have hbyte : modeAfterStrobe rs n (.fourLo h) = modeAfterByte rs h .fourHi := rfl
  rw [hbyte, modeAfterByte]
  split_ifs
  · exact .inl rfl
  · exact .inr rfl
  · exact .inr rfl

/-- R68's reason: from `Eight` each 0x3 is a function set that keeps `Eight`; from `FourHi` two of them make one byte, a function
set that selects `Eight`; from `FourLo` the first completes some byte, which leaves one of these two modes. -/
theorem modeAfterStrobe_threeResets (m : DeviceMode) :
    modeAfterStrobe false 0x3#4 (modeAfterStrobe false 0x3#4 (modeAfterStrobe false 0x3#4 m)) = .eight := by
  cases m with
  | eight => rfl
  | fourHi => rfl
  | fourLo h =>
    obtain hfirst | hfirst := modeAfterStrobe_fourLo false 0x3#4 h
    · rw [hfirst]; rfl
    · rw [hfirst]; rfl

/-- Settles O36: only the mode decides the mode after a strobe, and in `Eight` 0x2 is a function set that selects `FourHi`. -/
theorem threeResetStrobesResynchronise : Obligations.ThreeResetStrobesResynchronise := by
  intro d
  simp only [deviceAfter, List.foldl, deviceReceive_mode, modeAfterStrobe_threeResets, true_and]
  rfl

end Sys2Proof.Machine
end

section
/-! PROOFS. `send` event by event (20_memory.md R66; 40_serial_link.md R124; log entry 20): the outputs change with its last line
write only. -/

namespace Sys2Proof.Machine

@[simp] theorem settleSeq_out (op : Instr) (k : Nat) (s : State) : (settleSeq op k s).out = s.out := by
  rw [settleSeq_eq]
  cases h : s.fault with
  | none => rw [withSeq_of_noFault _ h]
  | some r => rw [withSeq_of_fault _ h]

/-- Only a write of 1 to LATCH can change the outputs (R29). -/
theorem Action.effect_out {a : Action} (ha : a ≠ .setLine .latch true) (s : State) : (a.effect s).out = s.out := by
  obtain ⟨-, h | ⟨r, h⟩⟩ | ⟨l, b, rfl⟩ | ⟨k, t, rfl⟩ | ⟨cb, rfl⟩ | ⟨d, rfl⟩ | ⟨v, rfl⟩ := a.effect_forms s
  · rw [h]
  · rw [h, raise_out]
  · by_cases hl : l = .latch
    · obtain ⟨rfl, rfl⟩ : l = .latch ∧ b = false := ⟨hl, by simpa [hl] using ha⟩
      exact congrArg (·.out) (setLine_latch_low s)
    · exact setLine_out hl b s
  · rfl
  · rfl
  · rfl
  · rfl

theorem runActions_out {as : List Action} (h : .setLine .latch true ∉ as) (s : State) : (runActions as s).out = s.out :=
  runActions_keeps (P := fun t => t.out = s.out)
    (fun _ ha t _ ht => (Action.effect_out (fun heq => h (heq ▸ ha)) t).trans ht) rfl

/-- Until its last event has run, an expansion has not run its last entry. -/
theorem throughEvents_concat_prefix {k : Nat} {as : List Action} {a : Action} (hk : k < (eventGroups (as ++ [a])).length) :
    throughEvents k (as ++ [a]) <+: as :=
  (List.prefix_concat_iff.1 ⟨_, throughEvents_append k (as ++ [a])⟩).resolve_left (throughEvents_ne hk)

/-- The entries of `send(b)` before its last line write (R93, R124). -/
def sendHead (b : Byte) : List Action := transmitActions b ++ [.checkComplete, .setLine .latch false]

theorem sendActions_eq_concat (b : Byte) : sendActions b = sendHead b ++ [.setLine .latch true] :=
  (List.append_assoc (transmitActions b) [.checkComplete, .setLine .latch false] [.setLine .latch true]).symm

theorem latchRise_notMem_sendHead (b : Byte) : .setLine .latch true ∉ sendHead b := by
  simp [sendHead, transmitActions, cellActions]

theorem eventCount_send (c : Config) (b : Byte) : eventCount c (.send b) = 26 := rfl

/-- Settles O19: before its last event a send has run entries of `sendHead` alone, which leave `OUT`; the whole run is the send. -/
theorem sendIsAtomicToTheDevice : Obligations.SendIsAtomicToTheDevice := by
  intro s b hstart hopen
  refine ⟨fun k hk => ?_, ?_⟩
  · have hlast : k < eventCount s.cfg (.send b) := by rw [eventCount_send]; omega
    have hhead : throughEvents k (sendActions b) <+: sendHead b := by
      rw [sendActions_eq_concat]
      exact throughEvents_concat_prefix hlast
    rw [sequencerRun_beginOperation hstart.1 hlast.le, settleSeq_out]
    exact runActions_out (fun hmem => latchRise_notMem_sendHead b (hhead.subset hmem)) s
  · have hrun : sequencerRun 26 (beginOperation (.send b) s) = send b s :=
      Host.Outcome.next.inj ((sequencerRefinesExec (.send b) s hstart).symm.trans (exec_of_canStart _ hstart))
    rw [hrun, send_eq b hstart.1 hopen]
    rfl

end Sys2Proof.Machine
end

section
/-! PROOFS. The ControlByte as a byte of bits (30_encoding.md R90, R91, R98) and the records of the operations (R95, R96, R102; log
entry 3): `decode` and `encode` are inverse to each other. -/

namespace Sys2Proof.Machine

/-! The ControlByte. -/

/-- The bits of a ControlByte: the fields of R90, with RW (bit 5) and SPARE (bit 7) clear. -/
theorem controlByte_fields (n : Nibble) (rs en : Level) :
    lowNibble (controlByte n rs en) = n ∧ (controlByte n rs en).getLsbD 4 = rs ∧
      (controlByte n rs en).getLsbD 5 = false ∧ (controlByte n rs en).getLsbD 6 = en ∧
      (controlByte n rs en).getLsbD 7 = false := by
  revert n rs en
  decide

theorem controlByte_inj {n n' : Nibble} {rs rs' en en' : Level} (h : controlByte n rs en = controlByte n' rs' en') :
    n = n' ∧ rs = rs' ∧ en = en' := by
  obtain ⟨hn, hrs, -, hen, -⟩ := controlByte_fields n rs en
  obtain ⟨hn', hrs', -, hen', -⟩ := controlByte_fields n' rs' en'
  exact ⟨by rw [← hn, h, hn'], by rw [← hrs, h, hrs'], by rw [← hen, h, hen']⟩

theorem controlByte_eq_or (n : Nibble) (rs en : Level) :
    controlByte n rs en =
      ((BitVec.ofBool en).setWidth 8 <<< 6) ||| ((BitVec.ofBool rs).setWidth 8 <<< 4) ||| n.setWidth 8 := by
  revert n rs en
  decide

/-- Settles O1: the fields can be read back from a ControlByte, so different operands give different ones. -/
theorem controlByteAssembly : Obligations.ControlByteAssembly := by
  refine ⟨fun _ _ _ => rfl, controlByte_eq_or, fun n rs en => ?_, fun _ _ _ _ _ _ => controlByte_inj,
    rfl, rfl, rfl, rfl, rfl⟩
  obtain ⟨-, -, h5, -, h7⟩ := controlByte_fields n rs en
  exact ⟨h7, h5⟩

/-! The operand bytes: a delay's kind and its time, the pattern 000rnnnn, and the RS byte of `write_byte`. -/

theorem delayKindOf_code (k : DelayKind) : delayKindOf k.code = some k := by
  cases k <;> rfl

theorem code_of_delayKindOf {b : Byte} {k : DelayKind} (h : delayKindOf b = some k) : k.code = b := by
  unfold delayKindOf at h
  split_ifs at h <;> cases h <;> exact Eq.symm ‹_›

/-- The bytes of `n` read back as `n`, from any fuel that is at least `n`. -/
theorem natOfBytes_bytesOfNatFuel {fuel n : Nat} (h : n ≤ fuel) : natOfBytes (bytesOfNatFuel fuel n) = n := by
  induction fuel generalizing n with
  | zero => exact (Nat.le_zero.mp h).symm
  | succ fuel ih =>
    by_cases hn : n = 0
    · simp [bytesOfNatFuel, natOfBytes, hn]
    · have hrest : natOfBytes (bytesOfNatFuel fuel (n / 256)) = n / 256 := ih (by omega)
      simp only [bytesOfNatFuel, if_neg hn, natOfBytes, hrest, BitVec.toNat_ofNat]
      omega

theorem natOfBytes_bytesOfNat (n : Nat) : natOfBytes (bytesOfNat n) = n := natOfBytes_bytesOfNatFuel le_rfl

theorem fields_rsNibbleByte (rs : Level) (n : Nibble) :
    rsField (rsNibbleByte rs n) = rs ∧ nibbleField (rsNibbleByte rs n) = n ∧ rsNibbleByte rs n &&& 0xE0#8 = 0#8 := by
  revert rs n
  decide

/-- A byte is its three high bits and its fields r and n. -/
theorem or_rsNibbleByte_fields (x : Byte) : (x &&& 0xE0#8) ||| rsNibbleByte (rsField x) (nibbleField x) = x := by
  revert x
  decide

theorem rsByte_getLsbD (rs : Level) : (0#7 ++ BitVec.ofBool rs).getLsbD 0 = rs := by
  cases rs <;> rfl

/-- The RS byte of `write_byte`: a byte with the bits 7 to 1 clear is its bit 0. -/
theorem rsByte_of_masked {r : Byte} (h : r &&& 0xFE#8 = 0#8) : 0#7 ++ BitVec.ofBool (r.getLsbD 0) = r := by
  revert r
  decide

theorem rsByte_masked (rs : Level) : (0#7 ++ BitVec.ofBool rs) &&& 0xFE#8 = 0#8 := by
  cases rs <;> rfl

/-! Decoding an encoding. -/

theorem decodeDelay_encode (selector : Byte) (k : DelayKind) (t : Nat) :
    decodeDelay selector k.code (bytesOfNat t) = .ok (.delay k t) := by
  simp [decodeDelay, delayKindOf_code, natOfBytes_bytesOfNat]

/-- The records of the two ControlByte patterns are the ControlBytes that `CB` builds (R91, R102). -/
theorem encode_cbEn1 (rs : Level) (n : Nibble) : encode (.cbEn1 rs n) = [controlByte n rs true] := by
  revert rs n
  decide

theorem encode_cbEn0 (rs : Level) (n : Nibble) : encode (.cbEn0 rs n) = [controlByte n rs false] := by
  revert rs n
  decide

/-- Settles O3: the first byte of a record selects its operation, and each operand reads back from its bytes. -/
theorem decodeOfEncode : Obligations.DecodeOfEncode := by
  intro i
  cases i with
  | initialise => rfl
  | writeCommand v => rfl
  | writeData v => rfl
  | writeString codes => rfl
  | transmit b => rfl
  | latch => rfl
  | send b => rfl
  | remap cb => rfl
  | nibble n rs =>
    obtain ⟨hrs, hn, hmask⟩ := fields_rsNibbleByte rs n
    have hcall : decode (encode (.nibble n rs)) =
        .ok (.nibble (nibbleField (rsNibbleByte rs n)) (rsField (rsNibbleByte rs n))) := if_pos hmask
    rw [hcall, hn, hrs]
  | writeByte v rs =>
    have hcall : decode (encode (.writeByte v rs)) = .ok (.writeByte v ((0#7 ++ BitVec.ofBool rs).getLsbD 0)) :=
      if_pos (rsByte_masked rs)
    rw [hcall, rsByte_getLsbD]
  | delay k t => exact decodeDelay_encode 0x8A#8 k t
  -- the 32 ControlBytes of each pattern
  | cbEn1 rs n =>
    revert rs n
    decide
  | cbEn0 rs n =>
    revert rs n
    decide

/-! Encoding a decoding. -/

theorem encode_of_decodeDelay {selector kind : Byte} {time : List Byte} {i : Instr}
    (h : decodeDelay selector kind time = .ok i) : encode i = 0x8A#8 :: kind :: time := by
  unfold decodeDelay at h
  cases hk : delayKindOf kind with
  | none => simp [hk] at h
  | some k =>
    by_cases ht : bytesOfNat (natOfBytes time) = time
    · obtain rfl : .delay k (natOfBytes time) = i := by simpa [hk, ht] using h
      simp [encode, ht, code_of_delayKindOf hk]
    · simp [hk, ht] at h

theorem eq_ofNat_of_toNat_eq {b : Byte} {k : Nat} (h : b.toNat = k) : b = BitVec.ofNat 8 k := by
  rw [← h, BitVec.ofNat_toNat, BitVec.setWidth_eq]

/-- A selector and operands that name an operation are its record. -/
theorem encode_of_decodeCall {selector : Byte} {operands : List Byte} {i : Instr}
    (h : decodeCall selector operands = .ok i) : encode i = selector :: operands := by
  unfold decodeCall at h
  split at h
  -- no selector, or the wrong number of operands: refused in both branches
  case h_12 => split at h <;> cases h
  all_goals
    rename_i hselector
    obtain rfl := eq_ofNat_of_toNat_eq hselector
  -- `nibble`, `write_byte` and `delay` check their operand bytes
  case h_9 x =>
    by_cases hmask : x &&& 0xE0#8 = 0#8
    · obtain rfl : .nibble (nibbleField x) (rsField x) = i := by simpa [hmask] using h
      have hx : rsNibbleByte (rsField x) (nibbleField x) = x := by simpa [hmask] using or_rsNibbleByte_fields x
      simp [encode, hx]
    · simp [hmask] at h
  case h_10 v r =>
    by_cases hmask : r &&& 0xFE#8 = 0#8
    · obtain rfl : .writeByte v (r.getLsbD 0) = i := by simpa only [if_pos hmask, Except.ok.injEq] using h
      simp only [encode, rsByte_of_masked hmask]
    · simp [hmask] at h
  case h_11 => exact encode_of_decodeDelay h
  -- every other selector takes its operand bytes as they are
  all_goals
    cases h
    rfl

/-- Settles O4: a record that decodes begins with a selector, or it is one byte with the bits of its pattern. -/
theorem encodeOfDecode : Obligations.EncodeOfDecode := by
  intro record i h
  cases record with
  | nil => cases h
  | cons b operands =>
    simp only [decode] at h
    have hbyte := or_rsNibbleByte_fields b
    split_ifs at h with hspare hen1 hempty hen0 hempty
    · exact encode_of_decodeCall h
    · cases h
      rw [hen1] at hbyte
      rw [encode, hbyte, hempty]
    · cases h
      rw [hen0, BitVec.zero_or] at hbyte
      rw [encode, hbyte, hempty]

/-! The records that the statements name. -/

/-- Settles O2: both directions are the round trips, on the one-byte records of the two patterns; RW = 1 fits neither pattern. -/
theorem controlByteRecordsDecode : Obligations.ControlByteRecordsDecode := by
  refine ⟨fun n rs => ⟨?_, ?_⟩, fun b rs n h => ?_, fun b rs n h => ?_, fun b hspare hrw => ?_⟩
  · rw [← encode_cbEn1]
    exact decodeOfEncode _
  · rw [← encode_cbEn0]
    exact decodeOfEncode _
  · have henc := encodeOfDecode [b] _ h
    rw [encode_cbEn1] at henc
    exact (List.singleton_inj.1 henc).symm
  · have henc := encodeOfDecode [b] _ h
    rw [encode_cbEn0] at henc
    exact (List.singleton_inj.1 henc).symm
  · have hmask : (b &&& 0xE0#8).getLsbD 5 = true := by simp [hrw]
    have hen1 : b &&& 0xE0#8 ≠ 0x40#8 := fun h => absurd hmask (by rw [h]; decide)
    have hen0 : b &&& 0xE0#8 ≠ 0x00#8 := fun h => absurd hmask (by rw [h]; decide)
    simp only [decode, hspare, hen1, hen0, Bool.false_eq_true, if_false]

/-- Settles O5: each sample is the record of its operation. -/
theorem sampleRecordsDecode : Obligations.SampleRecordsDecode :=
  ⟨decodeOfEncode (.cbEn1 true 0x4#4), decodeOfEncode (.cbEn0 true 0x4#4), decodeOfEncode .initialise,
    decodeOfEncode (.writeCommand 0x01#8), decodeOfEncode (.writeString [0x48#8, 0x49#8]),
    decodeOfEncode (.transmit 0x54#8), decodeOfEncode (.remap 0x54#8), decodeOfEncode (.nibble 0x4#4 true),
    decodeOfEncode (.delay .exec 1520)⟩

end Sys2Proof.Machine
end

section
/-! PROOFS. Compositions (30_encoding.md R97): an operation that completes and then another one give what their composition gives.
`send` is a transmit and a latch (40_serial_link.md R124), a nibble two sends and a delay, a string its characters
(42_display_controller.md R150, R154). -/

namespace Sys2Proof.Machine

/-- The last operation of a composition, called at `t`, gives what the composition gives at `s`, when both can start and their
bodies agree. -/
theorem exec_eq_exec {j k : Instr} {s t : State} (hstart : CanStart s) (hmid : CanStart t)
    (hbody : bodyOf j t = bodyOf k s) : exec j t = exec k s := by
  rw [exec_of_canStart j hmid, exec_of_canStart k hstart, hbody]

/-- Settles O17: the transmit raises no fault, so the send goes on with the latch. -/
theorem sendIsTransmitThenLatch : Obligations.SendIsTransmitThenLatch := by
  intro s b hstart hopen
  have hmid : CanStart (transmit b s) := by rwa [transmit_eq b hopen]
  have hbody : bodyOf .latch (transmit b s) = bodyOf (.send b) s := (andThen_of_noFault latch hmid.1).symm
  exact ⟨transmit b s, exec_of_canStart _ hstart, exec_eq_exec hstart hmid hbody⟩

/-- A call can start, and its first send will raise no fault (R121). -/
def CallReady (s : State) : Prop := CanStart s ∧ LinkOpen s

theorem keeps_callReady_present (cb : Byte) : Keeps CallReady (present cb) := by
  intro s hs h
  obtain ⟨hstart, hopen⟩ := h
  rw [present, send_eq _ (by exact hs) (by exact hopen)]
  exact ⟨hstart, (by decide : ¬ (0 : Fin 9) = 8), rfl⟩

theorem keeps_callReady_delayFor (k : DelayKind) (t : Nat) : Keeps CallReady (delayFor k t) := fun _ _ h => h

/-- Settles O22: neither send raises a fault, so the transfer goes on to its delay. -/
theorem nibbleIsTwoSendsAndADelay : Obligations.NibbleIsTwoSendsAndADelay := by
  intro s n rs hstart hopen
  let t1 := present (controlByte n rs true) s
  let t2 := present (controlByte n rs false) t1
  obtain ⟨h1, hopen1⟩ : CallReady t1 := keeps_callReady_present _ hstart.1 ⟨hstart, hopen⟩
  obtain ⟨h2, -⟩ : CallReady t2 := keeps_callReady_present _ h1.1 ⟨h1, hopen1⟩
  have hexec1 : exec (.cbEn1 rs n) s = .next t1 := exec_of_canStart _ hstart
  have hexec2 : exec (.cbEn0 rs n) t1 = .next t2 := exec_of_canStart _ h1
  have hcfg : t2.cfg = s.cfg := (configurationIsFixed.1 _ _ _ hexec2).1.trans (configurationIsFixed.1 _ _ _ hexec1).1
  have hbody : bodyOf (.delay .nibble s.cfg.tNibble) t2 = bodyOf (.nibble n rs) s := by
    rw [bodyOf, bodyOf, nibbleTransfer_eq, andThen_of_noFault _ h1.1, andThen_of_noFault _ h2.1, hcfg]
  exact ⟨t1, t2, hexec1, hexec2, exec_eq_exec hstart h2 hbody⟩

/-- Settles O29: a character raises no fault and leaves `Ready`, so the string goes on with its other characters. -/
theorem writeStringIsItsCharacters : Obligations.WriteStringIsItsCharacters := by
  intro s c cs hstart hopen hready
  have hexec : exec (.writeData c) s = .next (writeData c s) := exec_of_canStart _ hstart
  have hbyte : Keeps CallReady (writeByte c true) :=
    keeps_writeByte (fun n rs en => keeps_callReady_present (controlByte n rs en)) keeps_callReady_delayFor c true
  obtain ⟨hmid, -⟩ : CallReady (writeData c s) := by
    rw [writeData, requireReady_pos _ hready]
    exact hbyte hstart.1 ⟨hstart, hopen⟩
  have hstill : (writeData c s).dstate = .ready := by
    obtain h | ⟨h, -⟩ := dStateTransitions _ _ _ hexec
    · exact h.trans hready
    · cases h
  have hbody : bodyOf (.writeString cs) (writeData c s) = bodyOf (.writeString (c :: cs)) s := by
    rw [bodyOf, bodyOf, writeString, requireReady_pos _ hstill, writeString, requireReady_pos _ hready, writeCodes,
      andThen_of_noFault _ hmid.1]
  exact ⟨writeData c s, hexec, exec_eq_exec hstart hmid hbody⟩

end Sys2Proof.Machine
end

section
/-! PROOFS. SerialLink's operations as whole records (40_serial_link.md R120 to R124), and its faults (R121, R122): a composition
over an unlatched byte ends at its first transmit (60_exceptions.md R214; log entry 16). -/

namespace Sys2Proof.Machine

/-- The claims' record of a fault is the block's fault entry (R214). -/
theorem faultEffect_eq_raise (r : FaultReason) (s : State) : faultEffect r s = raise r s := rfl

/-! The number of events. -/

/-- A bit cell is three line writes (R93). -/
theorem cellEvents_length (bits : List Level) : (cellEvents bits).length = bits.length * 3 := by
  simp [cellEvents, List.length_flatMap]

/-- A latch causes at most one strobe (R62). -/
theorem strobeEvents_length_le (w : Wiring) (old new : Byte) : (strobeEvents w old new).length ≤ 1 := by
  unfold strobeEvents
  split <;> simp

/-- Outputs that do not change are no EN fall (R63). -/
theorem strobeEvents_self (w : Wiring) (out : Byte) : strobeEvents w out out = [] :=
  if_neg fun ⟨hhigh, hlow⟩ => Bool.noConfusion (hhigh.symm.trans hlow)

/-! The three operations. -/

/-- Settles O14: over an open link `transmit_eq` is the whole effect, and a waiting byte fails the check of R121. -/
theorem transmitEffect : Obligations.TransmitEffect := by
  refine ⟨fun s b hstart hopen => ⟨?_, cellEvents_length (bitsOf b)⟩, fun s b hstart hwait => ?_⟩
  · rw [exec_of_canStart _ hstart, bodyOf, transmit_eq b hopen]
  · rw [exec_of_canStart _ hstart, bodyOf, transmit_unlatched b hwait, faultEffect_eq_raise]

/-- Settles O15: with a complete byte waiting a latch is its pulse, and any other count fails the check of R122. -/
theorem latchEffect : Obligations.LatchEffect := by
  refine ⟨fun s hstart hwait => ⟨?_, strobeEvents_length_le _ _ _, fun hsame => ?_⟩, fun s hstart hpartial => ?_⟩
  · rw [exec_of_canStart _ hstart, bodyOf, latch_eq hwait, latchPulse_eq, pulseEvents]
  · rw [hsame, strobeEvents_self]
  · rw [exec_of_canStart _ hstart, bodyOf, latch_partial hpartial, faultEffect_eq_raise]

/-- Settles O16: over an open link `send_eq` is the whole effect, with the 24 line writes of the cells and the pulse's two. -/
theorem sendEffect : Obligations.SendEffect := by
  intro s b hstart hopen
  refine ⟨?_, ?_, strobeEvents_length_le _ _ _⟩
  · rw [exec_of_canStart _ hstart, bodyOf, send_eq b hstart.1 hopen, linkHolding]
  · rw [lineWrites, List.length_append, cellEvents_length]
    rfl

/-! Over an unlatched byte: what is left is what was written before the first transmit (log entry 16). -/

/-- A composition whose first part raises a fault ends with it (R214). -/
theorem andThen_raise (r : FaultReason) (s : State) (f : State → State) : andThen (raise r s) f = raise r s :=
  andThen_of_fault f (raise_fault r s)

section Unlatched
variable {s : State} (hwait : s.linkcnt = 8)
include hwait

theorem present_unlatched (cb : Byte) : present cb s = raise .unlatchedTransmit { s with acc := cb } :=
  send_unlatched _ (by exact hwait)

theorem nibbleTransfer_unlatched (n : Nibble) (rs : Level) :
    nibbleTransfer n rs s = raise .unlatchedTransmit { s with acc := controlByte n rs true } := by
  rw [nibbleTransfer, present_unlatched hwait, andThen_raise]

theorem writeByte_unlatched (v : Byte) (rs : Level) :
    writeByte v rs s = raise .unlatchedTransmit { s with acc := controlByte (highNibble v) rs true } := by
  rw [writeByte, nibbleTransfer_unlatched hwait, andThen_raise]

theorem nibbleStep_unlatched (n : Nibble) (kind : DelayKind) (t : Nat) :
    nibbleStep n kind t s = raise .unlatchedTransmit { s with acc := controlByte n false true } := by
  rw [nibbleStep, nibbleTransfer_unlatched hwait, andThen_raise]

theorem writeData_unlatched (v : Byte) (hready : s.dstate = .ready) :
    writeData v s = raise .unlatchedTransmit { s with acc := controlByte (highNibble v) true true } := by
  rw [writeData, requireReady_pos _ hready, writeByte_unlatched hwait]

/-- The initialization reaches its first nibble with `DSTATE` written and its first delay emitted (R180 to R182). -/
theorem initSequence_unlatched (hf : s.fault = none) :
    initSequence s =
      raise .unlatchedTransmit
        { delayFor .powerOn s.cfg.tPowerOn { s with dstate := .initializing } with acc := controlByte 0x3#4 false true } := by
  rw [initSequence, andThen_of_noFault _ (by exact hf), nibbleStep_unlatched (by exact hwait), andThen_raise]

end Unlatched

/-- Settles O18: each operation begins with a transmit, after the write of `ACC` in all but `send`. -/
theorem unlatchedByteStopsEverySend : Obligations.UnlatchedByteStopsEverySend := by
  intro s hstart hwait
  simp only [exec_of_canStart _ hstart, bodyOf, faultEffect_eq_raise]
  refine ⟨fun b => ?_, fun rs n => ?_, fun rs n => ?_, fun n rs => ?_, fun v rs => ?_⟩
  · rw [send_unlatched b hwait]
  · rw [present_unlatched hwait]
  · rw [present_unlatched hwait]
  · rw [nibbleTransfer_unlatched hwait]
  · rw [writeByte_unlatched hwait]

/-- Settles O54: each call passes its own check of `DSTATE` and then meets the byte at its first transmit; the empty string has
none. -/
theorem unlatchedByteStopsUpstreamCalls : Obligations.UnlatchedByteStopsUpstreamCalls := by
  intro s hstart hwait
  simp only [exec_of_canStart _ hstart, bodyOf, faultEffect_eq_raise]
  refine ⟨fun v hready => ?_, fun v hready => ?_, fun c cs hready => ?_, fun hready => ?_, fun huninit => ?_⟩
  · rw [writeCommand, requireReady_pos _ hready, writeByte_unlatched hwait]
  · rw [writeData_unlatched hwait v hready]
  · rw [writeString, requireReady_pos _ hready, writeCodes, writeData_unlatched hwait c hready, andThen_raise]
  · rw [writeString, requireReady_pos _ hready, writeCodes]
  · rw [initialiseDisplay, requireUninitialized_pos _ huninit, initSequence_unlatched hwait hstart.1]
    rfl

end Sys2Proof.Machine
end

section
/-! PROOFS. PinRemapper (41_pin_remapper.md R140 to R143): `remap` puts bit i at line `WIRING[i]`, and `unremap` is the `remap` of
the inverse table, so one bit rule serves both. -/

namespace Sys2Proof.Machine

/-! Bits of a byte. -/

theorem byte_ext {a b : Byte} (h : ∀ k, bitAt a k = bitAt b k) : a = b :=
  BitVec.eq_of_getLsbD_eq fun k hk => h ⟨k, hk⟩

theorem bitAt_setBit (v : Byte) (k j : Fin 8) (b : Level) : bitAt (setBit v k b) j = if j = k then b else bitAt v j := by
  have mask : (1#8 <<< k.val).getLsbD j.val = decide (j = k) := by
    revert k j
    decide
  cases b with
  | false =>
    change (v &&& ~~~(1#8 <<< k.val)).getLsbD j.val = _
    rw [BitVec.getLsbD_and, BitVec.getLsbD_not, mask]
    by_cases h : j = k <;> simp [bitAt, h]
  | true =>
    change (v ||| (1#8 <<< k.val)).getLsbD j.val = _
    rw [BitVec.getLsbD_or, mask]
    by_cases h : j = k <;> simp [bitAt, h]

theorem mem_bitIndices (i : Fin 8) : i ∈ bitIndices := by
  revert i
  decide

theorem bitsOf_eq_map (v : Byte) : bitsOf v = bitIndices.map (bitAt v) := rfl

/-- Bits written through an injective table do not overwrite each other: the bit at `line i` is the one that i sent there. -/
theorem bitAt_foldl_setBit {line : Fin 8 → Fin 8} (hinj : Function.Injective line) (bit : Fin 8 → Level) (i : Fin 8)
    (is : List (Fin 8)) (v : Byte) :
    bitAt (is.foldl (fun v j => setBit v (line j) (bit j)) v) (line i) = if i ∈ is then bit i else bitAt v (line i) := by
  induction is generalizing v with
  | nil => simp
  | cons j js ih =>
    rw [List.foldl_cons, ih, bitAt_setBit]
    by_cases hmem : i ∈ js
    · simp [hmem]
    · by_cases hij : i = j
      · simp [hij]
      · simp [hmem, hij, hinj.ne hij]

/-! Tables of eight lines. -/

theorem line_injective {w : Wiring} (h : w.IsPermutation) : Function.Injective w.line :=
  fun i j hij => by_contra fun hne => h i j hne hij

@[simp] theorem ofFn_line (f : Fin 8 → Fin 8) (k : Fin 8) : (Wiring.ofFn f).line k = f k := by
  fin_cases k <;> rfl

@[simp] theorem identity_line (k : Fin 8) : Wiring.identity.line k = k := ofFn_line id k

theorem wiring_ext {w v : Wiring} (h : w.line = v.line) : w = v :=
  calc w = Wiring.ofFn w.line := rfl
    _ = Wiring.ofFn v.line := by rw [h]
    _ = v := rfl

/-! `remap` (R140). -/

/-- R140: bit i of the input is bit `WIRING[i]` of the output. -/
theorem bitAt_remapFrame {w : Wiring} (h : w.IsPermutation) (cb : Byte) (i : Fin 8) :
    bitAt (remapFrame w cb) (w.line i) = bitAt cb i := by
  rw [remapFrame, bitAt_foldl_setBit (line_injective h), if_pos (mem_bitIndices i)]

/-- A byte whose bits are all alike is its own frame. -/
theorem remapFrame_of_const {w : Wiring} (h : w.IsPermutation) {cb : Byte} {b : Level} (hcb : ∀ k, bitAt cb k = b) :
    remapFrame w cb = cb := by
  apply byte_ext
  intro k
  obtain ⟨i, rfl⟩ := line_surjective h k
  rw [bitAt_remapFrame h, hcb, hcb]

theorem remapFrame_identity (cb : Byte) : remapFrame Wiring.identity cb = cb := by
  apply byte_ext
  intro k
  simpa using bitAt_remapFrame (w := Wiring.identity) (by decide) cb k

theorem map_line_perm {w : Wiring} (h : w.IsPermutation) : (bitIndices.map w.line).Perm bitIndices := by
  have hnodup : bitIndices.Nodup := by decide
  rw [List.perm_ext_iff_of_nodup (hnodup.map (line_injective h)) hnodup]
  intro k
  obtain ⟨i, hi⟩ := line_surjective h k
  exact iff_of_true (List.mem_map.2 ⟨i, mem_bitIndices i, hi⟩) (mem_bitIndices k)

/-- The frame has the bits of the input in another order. -/
theorem bitsOf_remapFrame_perm {w : Wiring} (h : w.IsPermutation) (cb : Byte) :
    (bitsOf (remapFrame w cb)).Perm (bitsOf cb) := by
  have hbits : bitsOf cb = (bitIndices.map w.line).map (bitAt (remapFrame w cb)) := by
    rw [bitsOf_eq_map, List.map_map]
    exact List.map_congr_left fun i _ => (bitAt_remapFrame h cb i).symm
  rw [hbits, bitsOf_eq_map]
  exact (map_line_perm h).symm.map _

/-- Settles O8: each clause about a permutation follows from the place that R140 gives to each bit. -/
theorem remapPermutesBits : Obligations.RemapPermutesBits :=
  ⟨fun _ cb h => bitAt_remapFrame h cb,
    fun _ h => ⟨remapFrame_of_const h (b := false) (by decide), remapFrame_of_const h (b := true) (by decide)⟩,
    fun _ cb h => (bitsOf_remapFrame_perm h cb).count_eq true,
    remapFrame_identity,
    rfl,
    fun _ cb hstart => exec_of_canStart (.remap cb) hstart⟩

/-! `INV` and `unremap` (R143). -/

theorem inverseWiring_line_line {w : Wiring} (h : w.IsPermutation) (i : Fin 8) : (inverseWiring w).line (w.line i) = i := by
  have hfind : (bitIndices.find? fun j => w.line j = w.line i).isSome := by
    rw [List.find?_isSome]
    exact ⟨i, mem_bitIndices i, by simp⟩
  obtain ⟨j, hj⟩ := Option.isSome_iff_exists.1 hfind
  have hline : w.line j = w.line i := by simpa using List.find?_some hj
  rw [inverseWiring, ofFn_line, hj, Option.getD_some, line_injective h hline]

theorem line_inverseWiring_line {w : Wiring} (h : w.IsPermutation) (k : Fin 8) : w.line ((inverseWiring w).line k) = k := by
  obtain ⟨i, rfl⟩ := line_surjective h k
  rw [inverseWiring_line_line h]

theorem inverseWiring_isPermutation {w : Wiring} (h : w.IsPermutation) : (inverseWiring w).IsPermutation := by
  intro j k hne heq
  apply hne
  rw [← line_inverseWiring_line h j, heq, line_inverseWiring_line h]

theorem unremapFrame_eq_remapFrame (w : Wiring) (frame : Byte) : unremapFrame w frame = remapFrame (inverseWiring w) frame := rfl

/-- Two tables that compose to the identity undo each other's frames. -/
theorem remapFrame_remapFrame {w v : Wiring} (hw : w.IsPermutation) (hv : v.IsPermutation)
    (hinv : ∀ i, v.line (w.line i) = i) (x : Byte) : remapFrame v (remapFrame w x) = x := by
  apply byte_ext
  intro i
  calc bitAt (remapFrame v (remapFrame w x)) i
      = bitAt (remapFrame v (remapFrame w x)) (v.line (w.line i)) := by rw [hinv]
    _ = bitAt x i := by rw [bitAt_remapFrame hv, bitAt_remapFrame hw]

theorem inverseWiring_eq_self_iff {w : Wiring} (h : w.IsPermutation) :
    inverseWiring w = w ↔ ∀ i, w.line (w.line i) = i := by
  constructor
  · intro hself i
    calc w.line (w.line i) = (inverseWiring w).line (w.line i) := by rw [hself]
      _ = i := inverseWiring_line_line h i
  · intro hinvol
    apply wiring_ext
    funext k
    apply line_injective h
    rw [line_inverseWiring_line h, hinvol]

/-- Settles O9: `unremap` is the `remap` of `INV`, and the two tables compose to the identity in either order. -/
theorem unremapInvertsRemap : Obligations.UnremapInvertsRemap := by
  intro w h
  have hinv := inverseWiring_isPermutation h
  refine ⟨inverseWiring_line_line h, fun x => ?_, fun x => ?_, inverseWiring_eq_self_iff h⟩
  · rw [unremapFrame_eq_remapFrame, remapFrame_remapFrame h hinv (inverseWiring_line_line h)]
  · rw [unremapFrame_eq_remapFrame, remapFrame_remapFrame hinv h (line_inverseWiring_line h)]

end Sys2Proof.Machine
end

section
/-! PROOFS. The transfers of DisplayController over an open link (42_display_controller.md R150 to R156): the frame of a ControlByte
on the device's lines (20_memory.md R61 to R63), each transfer as its whole effect, and the events that it adds. -/

namespace Sys2Proof.Machine

/-! The frame of a ControlByte, as the device sees it. -/

theorem ofBool_bits_eq_lowNibble (cb : Byte) :
    BitVec.ofBool (bitAt cb 3) ++ BitVec.ofBool (bitAt cb 2) ++ BitVec.ofBool (bitAt cb 1) ++ BitVec.ofBool (bitAt cb 0) =
      lowNibble cb := by
  revert cb
  decide

theorem deviceNibble_remapFrame {w : Wiring} (h : w.IsPermutation) (cb : Byte) :
    deviceNibble w (remapFrame w cb) = lowNibble cb := by
  have hd7 : bitAt (remapFrame w cb) w.d7 = bitAt cb 3 := bitAt_remapFrame h cb 3
  have hd6 : bitAt (remapFrame w cb) w.d6 = bitAt cb 2 := bitAt_remapFrame h cb 2
  have hd5 : bitAt (remapFrame w cb) w.d5 = bitAt cb 1 := bitAt_remapFrame h cb 1
  have hd4 : bitAt (remapFrame w cb) w.d4 = bitAt cb 0 := bitAt_remapFrame h cb 0
  rw [deviceNibble, hd7, hd6, hd5, hd4, ofBool_bits_eq_lowNibble]

/-- The device sees the fields of the ControlByte on its lines, whatever the wiring (R61, R91). -/
theorem controlByte_on_lines {w : Wiring} (h : w.IsPermutation) (n : Nibble) (rs en : Level) :
    deviceNibble w (remapFrame w (controlByte n rs en)) = n ∧ bitAt (remapFrame w (controlByte n rs en)) w.rs = rs ∧
      bitAt (remapFrame w (controlByte n rs en)) w.rw = false ∧ bitAt (remapFrame w (controlByte n rs en)) w.en = en := by
  obtain ⟨hn, hrs, hrw, hen, -⟩ := controlByte_fields n rs en
  exact ⟨(deviceNibble_remapFrame h _).trans hn, (bitAt_remapFrame h _ 4).trans hrs, (bitAt_remapFrame h _ 5).trans hrw,
    (bitAt_remapFrame h _ 6).trans hen⟩

/-- A frame with EN = 1 is no device write (R63). -/
theorem strobeEvents_en1 {w : Wiring} (h : w.IsPermutation) (old : Byte) (n : Nibble) (rs : Level) :
    strobeEvents w old (remapFrame w (controlByte n rs true)) = [] := by
  obtain ⟨-, -, -, hen⟩ := controlByte_on_lines h n rs true
  simp [strobeEvents, hen]

/-- A frame with EN = 0 writes its nibble to the device exactly when EN was 1 before (R62). -/
theorem strobeEvents_en0 {w : Wiring} (h : w.IsPermutation) (old : Byte) (n : Nibble) (rs : Level) :
    strobeEvents w old (remapFrame w (controlByte n rs false)) = if bitAt old w.en = true then [.strobe rs false n] else [] := by
  obtain ⟨hn, hrs, hrw, hen⟩ := controlByte_on_lines h n rs false
  simp [strobeEvents, hn, hrs, hrw, hen]

theorem bitAt_controlByte_ne_iff (n : Nibble) (rs : Level) (i : Fin 8) :
    bitAt (controlByte n rs true) i ≠ bitAt (controlByte n rs false) i ↔ i = 6 := by
  revert n rs i
  decide

/-- Settles O23: every line is some `WIRING[i]`, and there the frames have bit i of their ControlBytes, which differ at EN. -/
theorem onlyTheEnableLineDiffers : Obligations.OnlyTheEnableLineDiffers := by
  intro w n rs k h
  obtain ⟨i, rfl⟩ := line_surjective h k
  rw [bitAt_remapFrame h, bitAt_remapFrame h, bitAt_controlByte_ne_iff, (line_injective h).eq_iff]

/-! The two sends of a nibble transfer (R150 steps 1 to 3). -/

/-- A transfer can start and will raise no fault, in a configuration for which runs exist (R121, R217). -/
def TransferReady (s : State) : Prop := s.cfg.Legal ∧ CallReady s

namespace TransferReady

/-- A send leaves the link open for the next transfer (R120, R124). -/
theorem after_send {s : State} (h : TransferReady s) (f cb : Byte) (es : List Event) (d : Device) :
    TransferReady { linkHolding f s with acc := cb, trace := es, device := d } :=
  ⟨h.1, h.2.1, (by decide : ¬ (0 : Fin 9) = 8), rfl⟩

variable {s : State} (h : TransferReady s)
include h

theorem noFault : s.fault = none := h.2.1.1

theorem isPermutation : s.cfg.wiring.IsPermutation := h.1.1

theorem after_nibbleEffect (n : Nibble) (rs : Level) : TransferReady (nibbleEffect n rs s) := h.after_send _ _ _ _

theorem after_byteEffect (v : Byte) (rs : Level) : TransferReady (byteEffect v rs s) := h.after_send _ _ _ _

end TransferReady

section Sends
variable {s : State} (h : TransferReady s) (n : Nibble) (rs : Level)
include h

theorem present_eq (cb : Byte) :
    present cb s =
      { linkHolding (remapFrame s.cfg.wiring cb) s with
        acc := cb
        trace := s.trace ++ lineWrites (remapFrame s.cfg.wiring cb) ++
          strobeEvents s.cfg.wiring s.out (remapFrame s.cfg.wiring cb)
        device := deviceAfter s.device (strobesOf (strobeEvents s.cfg.wiring s.out (remapFrame s.cfg.wiring cb))) } := by
  rw [present, send_eq _ (by exact h.noFault) (by exact h.2.2)]
  rfl

theorem present_en1_eq :
    present (controlByte n rs true) s =
      { linkHolding (remapFrame s.cfg.wiring (controlByte n rs true)) s with
        acc := controlByte n rs true
        trace := s.trace ++ lineWrites (remapFrame s.cfg.wiring (controlByte n rs true)) } := by
  rw [present_eq h, strobeEvents_en1 h.isPermutation, List.append_nil]
  rfl

theorem present_en0_eq :
    present (controlByte n rs false) s =
      { linkHolding (remapFrame s.cfg.wiring (controlByte n rs false)) s with
        acc := controlByte n rs false
        trace := s.trace ++ lineWrites (remapFrame s.cfg.wiring (controlByte n rs false)) ++
          (if bitAt s.out s.cfg.wiring.en = true then [.strobe rs false n] else [])
        device := if bitAt s.out s.cfg.wiring.en = true then deviceReceive rs false n s.device else s.device } := by
  rw [present_eq h, strobeEvents_en0 h.isPermutation]
  split <;> rfl

end Sends

/-- Settles O21: each pattern is one send, and its frame decides the strobe. -/
theorem controlByteSendEffect : Obligations.ControlByteSendEffect := by
  intro s rs n hlegal hstart hopen
  have h : TransferReady s := ⟨hlegal, hstart, hopen⟩
  rw [exec_of_canStart _ hstart, exec_of_canStart _ hstart, bodyOf, bodyOf, present_en1_eq h, present_en0_eq h]
  exact ⟨rfl, rfl⟩

/-! The transfers as their effects. -/

section Transfers
variable {s : State} (h : TransferReady s)
include h

/-- The first send puts EN at 1, so the second one is the strobe, whatever the outputs held (R150). -/
theorem nibbleTransfer_eq_effect (n : Nibble) (rs : Level) : nibbleTransfer n rs s = nibbleEffect n rs s := by
  obtain ⟨-, -, -, hen⟩ := controlByte_on_lines h.isPermutation n rs true
  have hmid : TransferReady (present (controlByte n rs true) s) := by
    rw [present_en1_eq h]
    exact h.after_send _ _ _ _
  rw [nibbleTransfer_eq, andThen_of_noFault _ hmid.noFault, present_en0_eq hmid, andThen_of_noFault _ (by exact hmid.noFault),
    present_en1_eq h]
  simp [hen, delayFor, emit, nibbleEffect, nibbleEvents, linkHolding]

theorem writeByte_eq_effect (v : Byte) (rs : Level) : writeByte v rs s = byteEffect v rs s := by
  have hhigh := h.after_nibbleEffect (highNibble v) rs
  have hlow := hhigh.after_nibbleEffect (lowNibble v) rs
  rw [writeByte, nibbleTransfer_eq_effect h, andThen_of_noFault _ hhigh.noFault, nibbleTransfer_eq_effect hhigh,
    andThen_of_noFault _ hlow.noFault]
  simp [delayFor, emit, nibbleEffect, byteEffect, byteEvents, linkHolding]

theorem writeData_eq_effect (hready : s.dstate = .ready) (v : Byte) : writeData v s = byteEffect v true s := by
  rw [writeData, requireReady_pos _ hready, writeByte_eq_effect h]

theorem writeCodes_eq_effect (hready : s.dstate = .ready) (codes : List Byte) :
    writeCodes codes s = codes.foldl (fun s c => byteEffect c true s) s := by
  induction codes generalizing s with
  | nil => rfl
  | cons c cs ih =>
    have hnext := h.after_byteEffect c true
    rw [writeCodes, writeData_eq_effect h hready, andThen_of_noFault _ hnext.noFault, ih hnext hready, List.foldl_cons]

end Transfers

/-- Settles O20: `nibbleEffect` is the record of the statement. -/
theorem nibbleTransferEffect : Obligations.NibbleTransferEffect := by
  intro s n rs hlegal hstart hopen
  rw [exec_of_canStart _ hstart, bodyOf, nibbleTransfer_eq_effect ⟨hlegal, hstart, hopen⟩]
  simp [nibbleEffect, nibbleEvents, linkHolding]

/-! The events of the transfers, kind by kind. -/

@[simp] theorem strobesOf_append (es fs : List Event) : strobesOf (es ++ fs) = strobesOf es ++ strobesOf fs :=
  List.filterMap_append

@[simp] theorem delaysOf_append (es fs : List Event) : delaysOf (es ++ fs) = delaysOf es ++ delaysOf fs :=
  List.filterMap_append

@[simp] theorem lineWritesOf_append (es fs : List Event) : lineWritesOf (es ++ fs) = lineWritesOf es ++ lineWritesOf fs :=
  List.filterMap_append

/-- A frame is 26 line writes and nothing else (R93). -/
@[simp] theorem strobesOf_lineWrites (f : Byte) : strobesOf (lineWrites f) = [] := rfl

@[simp] theorem delaysOf_lineWrites (f : Byte) : delaysOf (lineWrites f) = [] := rfl

@[simp] theorem faultsOf_lineWrites (f : Byte) : faultsOf (lineWrites f) = [] := rfl

@[simp] theorem lineWritesOf_lineWrites_length (f : Byte) : (lineWritesOf (lineWrites f)).length = 26 := rfl

section Events
variable (c : Config) (n : Nibble) (v : Byte) (rs : Level)

@[simp] theorem strobesOf_nibbleEvents : strobesOf (nibbleEvents c n rs) = [(rs, false, n)] := by
  simp only [nibbleEvents, strobesOf_append, strobesOf_lineWrites]
  rfl

@[simp] theorem delaysOf_nibbleEvents : delaysOf (nibbleEvents c n rs) = [(.nibble, c.tNibble)] := by
  simp only [nibbleEvents, delaysOf_append, delaysOf_lineWrites]
  rfl

@[simp] theorem faultsOf_nibbleEvents : faultsOf (nibbleEvents c n rs) = [] := by
  simp only [nibbleEvents, faultsOf_append, faultsOf_lineWrites]
  rfl

theorem lineWritesOf_nibbleEvents :
    lineWritesOf (nibbleEvents c n rs) =
      lineWritesOf (lineWrites (remapFrame c.wiring (controlByte n rs true)) ++
        lineWrites (remapFrame c.wiring (controlByte n rs false))) :=
  (lineWritesOf_append _ _).trans (List.append_nil _)

theorem strobesOf_byteEvents : strobesOf (byteEvents c v rs) = [(rs, false, highNibble v), (rs, false, lowNibble v)] := by
  simp only [byteEvents, strobesOf_append, strobesOf_nibbleEvents]
  rfl

theorem delaysOf_byteEvents :
    delaysOf (byteEvents c v rs) = [(.nibble, c.tNibble), (.nibble, c.tNibble), (.exec, execDelay c rs v)] := by
  simp only [byteEvents, delaysOf_append, delaysOf_nibbleEvents]
  rfl

theorem faultsOf_byteEvents : faultsOf (byteEvents c v rs) = [] := by
  simp only [byteEvents, faultsOf_append, faultsOf_nibbleEvents]
  rfl

/-- The line writes of a byte are those of its two nibbles: the execution delay is none. -/
theorem lineWritesOf_byteEvents :
    lineWritesOf (byteEvents c v rs) =
      lineWritesOf (nibbleEvents c (highNibble v) rs) ++ lineWritesOf (nibbleEvents c (lowNibble v) rs) := by
  rw [byteEvents, lineWritesOf_append, lineWritesOf_append]
  exact List.append_nil _

theorem lineWritesOf_byteEvents_length : (lineWritesOf (byteEvents c v rs)).length = 104 := by
  simp [lineWritesOf_byteEvents, lineWritesOf_nibbleEvents]

end Events

/-- The events of `write_string` (R154). -/
def stringEvents (c : Config) (codes : List Byte) : List Event := codes.flatMap fun v => byteEvents c v true

theorem stringEvents_cons (c : Config) (v : Byte) (vs : List Byte) :
    stringEvents c (v :: vs) = byteEvents c v true ++ stringEvents c vs := List.flatMap_cons

theorem foldl_byteEffect_trace (codes : List Byte) (s : State) :
    (codes.foldl (fun s c => byteEffect c true s) s).trace = s.trace ++ stringEvents s.cfg codes := by
  induction codes generalizing s with
  | nil => exact (List.append_nil _).symm
  | cons c cs ih =>
    rw [List.foldl_cons, ih, stringEvents_cons, ← List.append_assoc]
    rfl

/-- R154: the counts and lists of a string are the sums of those of its codes. -/
theorem stringEvents_counts (c : Config) (codes : List Byte) :
    (lineWritesOf (stringEvents c codes)).length = 104 * codes.length ∧
      strobesOf (stringEvents c codes) = codes.flatMap (fun v => [(true, false, highNibble v), (true, false, lowNibble v)]) ∧
      (delaysOf (stringEvents c codes)).length = 3 * codes.length ∧ faultsOf (stringEvents c codes) = [] := by
  induction codes with
  | nil => exact ⟨rfl, rfl, rfl, rfl⟩
  | cons v vs ih =>
    obtain ⟨hlines, hstrobes, hdelays, hfaults⟩ := ih
    rw [stringEvents_cons]
    refine ⟨?_, ?_, ?_, ?_⟩
    · rw [lineWritesOf_append, List.length_append, lineWritesOf_byteEvents_length, hlines, List.length_cons]
      omega
    · rw [strobesOf_append, strobesOf_byteEvents, hstrobes, List.flatMap_cons]
    · rw [delaysOf_append, List.length_append, delaysOf_byteEvents, hdelays, List.length_cons]
      simp only [List.length_cons, List.length_nil]
      omega
    · rw [faultsOf_append, faultsOf_byteEvents, hfaults, List.nil_append]

/-! The byte transfer. -/

/-- Settles O24: two nibble transfers and the execution delay, whose events add up. -/
theorem writeByteEffect : Obligations.WriteByteEffect := by
  intro s v rs hlegal hstart hopen
  rw [exec_of_canStart _ hstart, bodyOf, writeByte_eq_effect ⟨hlegal, hstart, hopen⟩]
  exact ⟨rfl, lineWritesOf_byteEvents_length _ v rs, strobesOf_byteEvents _ v rs, delaysOf_byteEvents _ v rs⟩

/-- Settles O25: each nibble's line writes are those of its two frames, and the low nibble's EN = 0 frame stays. -/
theorem fourSendsPerByte : Obligations.FourSendsPerByte := by
  intro s v rs hlegal hstart hopen
  obtain ⟨hexec, -⟩ := writeByteEffect s v rs hlegal hstart hopen
  refine ⟨byteEffect v rs s, byteEvents s.cfg v rs, hexec, rfl, ?_, rfl⟩
  simp only [lineWritesOf_byteEvents, lineWritesOf_nibbleEvents, lineWritesOf_append, List.append_assoc]

/-! The write calls begin with the check of R211. -/

section Check
variable {i : Instr} {body : State → State} (hbody : bodyOf i = requireReady body) {s : State} (hstart : CanStart s)
include hbody hstart

theorem exec_of_ready (hready : s.dstate = .ready) : exec i s = .next (body s) := by
  rw [exec_of_canStart _ hstart, hbody, requireReady_pos _ hready]

theorem exec_of_notReady (hnot : s.dstate ≠ .ready) : exec i s = .next (faultEffect .notReady s) := by
  rw [exec_of_canStart _ hstart, hbody, requireReady_neg _ hnot, faultEffect_eq_raise]

end Check

/-- Settles O26: past the check, the call is the byte transfer with RS = 0. -/
theorem writeCommandEffect : Obligations.WriteCommandEffect := by
  refine ⟨fun s v hlegal hstart hopen hready => ?_, fun s v => exec_of_notReady rfl⟩
  rw [exec_of_ready (i := .writeCommand v) rfl hstart hready, writeByte_eq_effect ⟨hlegal, hstart, hopen⟩]

/-- Settles O27: past the check, the call is the byte transfer with RS = 1, for 0x00 like any other value. -/
theorem writeDataEffect : Obligations.WriteDataEffect := by
  refine ⟨fun s v hlegal hstart hopen hready => ?_, fun s v => exec_of_notReady rfl⟩
  rw [exec_of_ready (i := .writeData v) rfl hstart hready, writeByte_eq_effect ⟨hlegal, hstart, hopen⟩]

/-- Past the check, a string is the byte transfers of its codes in order (R154). -/
theorem exec_writeString {s : State} (h : TransferReady s) (hready : s.dstate = .ready) (codes : List Byte) :
    exec (.writeString codes) s = .next (codes.foldl (fun s c => byteEffect c true s) s) := by
  rw [exec_of_ready (i := .writeString codes) rfl h.2.1 hready, writeCodes_eq_effect h hready]

/-- Settles O28: the events of the whole string are those of its codes' byte transfers, one after the other. -/
theorem writeStringEffect : Obligations.WriteStringEffect :=
  ⟨fun _ codes hlegal hstart hopen hready => exec_writeString ⟨hlegal, hstart, hopen⟩ hready codes,
    fun s codes hlegal hstart hopen hready =>
      ⟨_, stringEvents s.cfg codes, exec_writeString ⟨hlegal, hstart, hopen⟩ hready codes, foldl_byteEffect_trace codes s,
        stringEvents_counts s.cfg codes⟩,
    fun _ _ => exec_of_notReady rfl⟩

/-! The execution delay (R155). -/

/-- The class of the long commands, spelled out: clear (0x01) and home (0x02 and 0x03). -/
theorem execDelay_eq (c : Config) (rs : Level) (v : Byte) :
    execDelay c rs v =
      if rs = true then c.tExecData else if v = 0x01#8 ∨ v = 0x02#8 ∨ v = 0x03#8 then c.tExecLong else c.tExecShort := by
  have hhome : v.extractLsb' 1 7 = 0b0000001#7 ↔ v = 0x02#8 ∨ v = 0x03#8 := by
    revert v
    decide
  rw [execDelay]
  simp only [hhome]

/-- Settles O30: the delay is the last entry of the expansion, and over an open link no fault ends the transfer before it. -/
theorem executionDelayIsLast : Obligations.ExecutionDelayIsLast := by
  intro s v rs hstart hopen
  have hkeeps : Keeps CallReady (writeByte v rs) :=
    keeps_writeByte (fun n rs en => keeps_callReady_present (controlByte n rs en)) keeps_callReady_delayFor v rs
  obtain ⟨⟨hnone, -⟩, -⟩ := hkeeps hstart.1 ⟨hstart, hopen⟩
  have hrun := realises_writeByte s.cfg v rs s rfl hstart.1
  rw [← hrun, byteActions] at hnone
  refine ⟨writeByte v rs s, exec_of_canStart _ hstart, ?_⟩
  rw [← hrun, byteActions, runActions_append, runActions_cons _ _ (noFault_of_runActions_append hnone), ← execDelay_eq]
  exact List.getLast?_concat

/-! No caching (R156). -/

/-- Settles O31: a command leaves the state ready for the next one; a send makes its line writes whatever `OUT` holds; a nibble
transfer writes `ACC` before it reads it. -/
theorem noCachingOrDeduplication : Obligations.NoCachingOrDeduplication := by
  refine ⟨fun s v hlegal hstart hopen hready => ?_, fun s b hstart hopen hout => ?_, fun s a n rs => ?_⟩
  · obtain ⟨hnextLegal, hnextStart, hnextOpen⟩ : TransferReady (byteEffect v false s) :=
      TransferReady.after_byteEffect ⟨hlegal, hstart, hopen⟩ v false
    exact ⟨_, _, writeCommandEffect.1 s v hlegal hstart hopen hready,
      writeCommandEffect.1 _ v hnextLegal hnextStart hnextOpen hready, rfl⟩
  · refine ⟨_, (sendEffect s b hstart hopen).1, ?_⟩
    subst hout
    rw [strobeEvents_self, List.append_nil]
  · have hbody : nibbleTransfer n rs { s with acc := a } = nibbleTransfer n rs s := rfl
    simp only [exec_eq_runOperation, bodyOf, runOperation, hbody]

end Sys2Proof.Machine
end

section
/-! PROOFS. `initialize` over an open link (43_lcd_init.md R180 to R189): its steps are transfers one after the other, so its whole
effect is that of one transfer with all their events, and its counts and lists are those of the events of its steps. -/

namespace Sys2Proof.Machine

/-! Transfers one after the other. -/

/-- The effect of transfers whose last frame is that of `cb` and whose events are `es`: what is left of the earlier ones is their
events and what the device received (R150, R151). -/
def transferEffect (cb : Byte) (es : List Event) (s : State) : State :=
  { linkHolding (remapFrame s.cfg.wiring cb) s with
    acc := cb
    trace := s.trace ++ es
    device := deviceAfter s.device (strobesOf es) }

@[simp] theorem transferEffect_cfg (cb : Byte) (es : List Event) (s : State) : (transferEffect cb es s).cfg = s.cfg := rfl

theorem deviceAfter_append (d : Device) (xs ys : List (Level × Level × Nibble)) :
    deviceAfter d (xs ++ ys) = deviceAfter (deviceAfter d xs) ys := List.foldl_append

theorem transferEffect_transferEffect (cb cb' : Byte) (es fs : List Event) (s : State) :
    transferEffect cb' fs (transferEffect cb es s) = transferEffect cb' (es ++ fs) s := by
  simp [transferEffect, linkHolding, deviceAfter_append]

theorem nibbleEffect_eq_transferEffect (n : Nibble) (rs : Level) (s : State) :
    nibbleEffect n rs s = transferEffect (controlByte n rs false) (nibbleEvents s.cfg n rs) s := by
  rw [transferEffect, strobesOf_nibbleEvents]
  rfl

theorem byteEffect_eq_transferEffect (v : Byte) (rs : Level) (s : State) :
    byteEffect v rs s = transferEffect (controlByte (lowNibble v) rs false) (byteEvents s.cfg v rs) s := by
  rw [transferEffect, strobesOf_byteEvents]
  rfl

/-- A delay is no strobe, no line write (R9, R200). -/
@[simp] theorem strobesOf_delay (k : DelayKind) (t : Nat) : strobesOf [.delay k t] = [] := rfl

@[simp] theorem lineWritesOf_delay (k : DelayKind) (t : Nat) : lineWritesOf [.delay k t] = [] := rfl

@[simp] theorem delaysOf_delay (k : DelayKind) (t : Nat) : delaysOf [.delay k t] = [(k, t)] := rfl

/-- A delay after transfers adds its event and nothing else (R200). -/
theorem delayFor_transferEffect (k : DelayKind) (t : Nat) (cb : Byte) (es : List Event) (s : State) :
    delayFor k t (transferEffect cb es s) = transferEffect cb (es ++ [.delay k t]) s := by
  simp [transferEffect, delayFor, emit, linkHolding]

/-- A delay before transfers adds its event before theirs (R181). -/
theorem transferEffect_delayFor (k : DelayKind) (t : Nat) (cb : Byte) (es : List Event) (s : State) :
    transferEffect cb es (delayFor k t s) = transferEffect cb ([.delay k t] ++ es) s := by
  simp only [transferEffect, strobesOf_append, strobesOf_delay, List.nil_append, delayFor_trace, List.append_assoc]
  rfl

section Steps
variable {s : State} (h : TransferReady s)
include h

theorem TransferReady.after_transferEffect (cb : Byte) (es : List Event) : TransferReady (transferEffect cb es s) :=
  h.after_send _ _ _ _

theorem nibbleStep_eq_transferEffect (n : Nibble) (k : DelayKind) (t : Nat) :
    nibbleStep n k t s = transferEffect (controlByte n false false) (nibbleEvents s.cfg n false ++ [.delay k t]) s := by
  rw [nibbleStep, nibbleTransfer_eq_effect h, nibbleEffect_eq_transferEffect,
    andThen_of_noFault _ (h.after_transferEffect _ _).noFault, delayFor_transferEffect]

/-- A single-nibble step raises no fault, so the sequence goes on from its effect (R182, R183). -/
theorem andThen_nibbleStep (n : Nibble) (k : DelayKind) (t : Nat) (f : State → State) :
    andThen (nibbleStep n k t s) f =
      f (transferEffect (controlByte n false false) (nibbleEvents s.cfg n false ++ [.delay k t]) s) := by
  rw [nibbleStep_eq_transferEffect h, andThen_of_noFault _ (h.after_transferEffect _ _).noFault]

/-- A byte step raises no fault, so the sequence goes on from its effect (R184 to R187). -/
theorem andThen_writeByte (v : Byte) (rs : Level) (f : State → State) :
    andThen (writeByte v rs s) f = f (transferEffect (controlByte (lowNibble v) rs false) (byteEvents s.cfg v rs) s) := by
  rw [writeByte_eq_effect h, byteEffect_eq_transferEffect, andThen_of_noFault _ (h.after_transferEffect _ _).noFault]

/-- Each step goes on from the effect of the steps before it, so the frame of the last one stays: 0x01, the low nibble of the
clear command (R181 to R188). -/
theorem initSequence_eq_transferEffect :
    initSequence s = { transferEffect 0x01#8 (initEvents s.cfg) s with dstate := .ready } := by
  have hpowered : TransferReady (delayFor .powerOn s.cfg.tPowerOn { s with dstate := .initializing }) := h
  have hlast : controlByte (lowNibble Config.initClear) false false = 0x01#8 := rfl
  rw [initSequence, andThen_of_noFault _ hpowered.noFault]
  simp only [andThen_nibbleStep, andThen_writeByte, hpowered, hpowered.after_transferEffect, transferEffect_transferEffect,
    transferEffect_cfg, delayFor_cfg, hlast]
  simp only [transferEffect_delayFor, initEvents, List.append_assoc]
  -- the two sides write `DSTATE` before and after the transfers
  rfl

end Steps

/-- Settles O32: past the check of R212 the call is its sequence of transfers. -/
theorem initializeEffect : Obligations.InitializeEffect := by
  refine ⟨fun s hlegal hstart hopen huninit => ?_, fun s hstart hnot => ?_⟩
  · rw [exec_of_canStart _ hstart, bodyOf, initialiseDisplay, requireUninitialized_pos _ huninit,
      initSequence_eq_transferEffect ⟨hlegal, hstart, hopen⟩, transferEffect]
  · rw [exec_of_canStart _ hstart, bodyOf, initialiseDisplay, requireUninitialized_neg _ hnot, faultEffect_eq_raise]

/-! The bytes of the sequence. -/

/-- With RS = 0 and EN = 1 the ControlByte of a low nibble is that nibble and the EN bit (R91). -/
theorem controlByte_lowNibble_en1 (v : Byte) : controlByte (lowNibble v) false true = 0x40#8 ||| (v &&& 0x0F#8) := by
  revert v
  decide

theorem controlByte_lowNibble_en0 (v : Byte) : controlByte (lowNibble v) false false = v &&& 0x0F#8 := by
  revert v
  decide

theorem highNibble_functionSet {v : Byte} (h : IsFourBitFunctionSet v) : highNibble v = 0x2#4 := h

/-- A 4-bit function set is neither clear nor home (R155, R184). -/
theorem execDelay_functionSet (c : Config) {v : Byte} (h : IsFourBitFunctionSet v) : execDelay c false v = c.tExecShort := by
  have hshort : ¬ (v = 0x01#8 ∨ v = 0x02#8 ∨ v = 0x03#8) := by
    revert v
    decide
  rw [execDelay_eq, if_neg Bool.false_ne_true, if_neg hshort]

/-! The events of the sequence, kind by kind (R189). -/

/-- Each frame is 26 line writes (R93). -/
theorem lineWritesOf_frames_length (w : Wiring) (cbs : List Byte) :
    (lineWritesOf (cbs.flatMap fun cb => lineWrites (remapFrame w cb))).length = 26 * cbs.length := by
  induction cbs with
  | nil => rfl
  | cons cb cbs ih =>
    rw [List.flatMap_cons, lineWritesOf_append, List.length_append, ih, lineWritesOf_lineWrites_length, List.length_cons]
    omega

/-- The 24 ControlBytes of the sequence, for a function set `v` (R189). -/
def initControlBytes (v : Byte) : List Byte :=
  [0x43#8, 0x03#8, 0x43#8, 0x03#8, 0x43#8, 0x03#8, 0x42#8, 0x02#8,
   0x42#8, 0x02#8, 0x40#8 ||| (v &&& 0x0F#8), v &&& 0x0F#8,
   0x40#8, 0x00#8, 0x4C#8, 0x0C#8, 0x40#8, 0x00#8, 0x46#8, 0x06#8, 0x40#8, 0x00#8, 0x41#8, 0x01#8]

theorem faultsOf_initEvents (c : Config) : faultsOf (initEvents c) = [] := by
  simp only [initEvents, faultsOf_append, faultsOf_delay, faultsOf_nibbleEvents, faultsOf_byteEvents, List.append_nil]

section Lists
variable {c : Config} (h : IsFourBitFunctionSet c.initFunctionSet)
include h

theorem lineWritesOf_initEvents :
    lineWritesOf (initEvents c) =
      lineWritesOf ((initControlBytes c.initFunctionSet).flatMap fun cb => lineWrites (remapFrame c.wiring cb)) := by
  simp only [initEvents, lineWritesOf_append, lineWritesOf_delay, lineWritesOf_byteEvents, lineWritesOf_nibbleEvents,
    highNibble_functionSet h, controlByte_lowNibble_en1, controlByte_lowNibble_en0, initControlBytes, List.flatMap_cons,
    List.flatMap_nil, List.append_assoc, List.append_nil, List.nil_append]
  -- the ControlBytes of constants are evaluated
  rfl

theorem strobesOf_initEvents :
    strobesOf (initEvents c) =
      [(false, false, 0x3#4), (false, false, 0x3#4), (false, false, 0x3#4), (false, false, 0x2#4),
       (false, false, 0x2#4), (false, false, lowNibble c.initFunctionSet),
       (false, false, 0x0#4), (false, false, 0xC#4), (false, false, 0x0#4), (false, false, 0x6#4),
       (false, false, 0x0#4), (false, false, 0x1#4)] := by
  simp only [initEvents, strobesOf_append, strobesOf_delay, strobesOf_nibbleEvents, strobesOf_byteEvents,
    highNibble_functionSet h]
  rfl

theorem delaysOf_initEvents :
    delaysOf (initEvents c) =
      [(.powerOn, c.tPowerOn),
       (.nibble, c.tNibble), (.reset1, c.tReset1), (.nibble, c.tNibble), (.reset2, c.tReset2),
       (.nibble, c.tNibble), (.reset3, c.tReset3), (.nibble, c.tNibble), (.fourBit, c.tFourBit),
       (.nibble, c.tNibble), (.nibble, c.tNibble), (.exec, c.tExecShort),
       (.nibble, c.tNibble), (.nibble, c.tNibble), (.exec, c.tExecShort),
       (.nibble, c.tNibble), (.nibble, c.tNibble), (.exec, c.tExecShort),
       (.nibble, c.tNibble), (.nibble, c.tNibble), (.exec, c.tExecLong)] := by
  simp only [initEvents, delaysOf_append, delaysOf_delay, delaysOf_nibbleEvents, delaysOf_byteEvents,
    execDelay_functionSet c h]
  rfl

end Lists

/-- Settles O33: the events that one complete `initialize()` adds are `initEvents`, counted and listed above. -/
theorem initializeCountsAndLists : Obligations.InitializeCountsAndLists := by
  intro s hlegal hstart hopen huninit
  have hset : IsFourBitFunctionSet s.cfg.initFunctionSet := hlegal.2
  refine ⟨_, initEvents s.cfg, initializeEffect.1 s hlegal hstart hopen huninit, rfl, ?_, lineWritesOf_initEvents hset,
    strobesOf_initEvents hset, delaysOf_initEvents hset, faultsOf_initEvents s.cfg⟩
  rw [lineWritesOf_initEvents hset, lineWritesOf_frames_length]
  rfl

end Sys2Proof.Machine
end

section
/-! PROOFS. The timing primitive (44_delay.md R200) and the device's minima (R202): the delays of a run are entries of the
expansion that ran, and every delay that an upstream call expands to asks for a duration of the configuration (R31). -/

namespace Sys2Proof.Machine

/-- Settles O38: past the frame of `runOperation`, the operation is `delayFor`, which appends its event. -/
theorem delayEffect : Obligations.DelayEffect := fun _ kind t hstart => exec_of_canStart (.delay kind t) hstart

/-! The delays of a run. -/

/-- The only delay that an entry can add to the trace is its own. -/
theorem Action.mem_delaysOf_effect {a : Action} {s : State} {k : DelayKind} {d : Nat}
    (h : (k, d) ∈ delaysOf (a.effect s).trace) : (k, d) ∈ delaysOf s.trace ∨ a = .delay k d := by
  have unchanged {es : List Event} (htrace : (a.effect s).trace = s.trace ++ es) (hes : delaysOf es = []) :
      (k, d) ∈ delaysOf s.trace := by simpa [htrace, hes] using h
  obtain ⟨hno, -⟩ | ⟨l, b, rfl⟩ | ⟨k', d', rfl⟩ | ⟨cb, rfl⟩ | ⟨x, rfl⟩ | ⟨v, rfl⟩ := a.effect_forms s
  · obtain ⟨es, htrace, -, hes⟩ := Action.effect_trace_noEvent hno s
    exact .inl (unchanged htrace hes)
  · obtain htrace | htrace := setLine_trace l b s
    · exact .inl (unchanged htrace rfl)
    · exact .inl (unchanged htrace (noPrimitive_strobeEvents _ _ _).2)
  · simpa [effect, eq_comm] using h
  · exact .inl h
  · exact .inl h
  · exact .inl h

theorem mem_delaysOf_runActions {as : List Action} {s : State} {k : DelayKind} {d : Nat}
    (h : (k, d) ∈ delaysOf (runActions as s).trace) : (k, d) ∈ delaysOf s.trace ∨ .delay k d ∈ as := by
  refine runActions_keeps (as := as) (s := s)
    (P := fun u => (k, d) ∈ delaysOf u.trace → (k, d) ∈ delaysOf s.trace ∨ .delay k d ∈ as) ?_ .inl h
  intro a ha u _ hu hmem
  obtain hold | rfl := Action.mem_delaysOf_effect hmem
  · exact hu hold
  · exact .inr ha

/-! The delays of an expansion. -/

/-- Every delay entry asks for at least the device's minimum for its kind (R202). -/
def AsksForMinima (min : DelayKind → Nat) (as : List Action) : Prop := ∀ k d, .delay k d ∈ as → min k ≤ d

theorem MinimaRespected.runActions {min : DelayKind → Nat} {as : List Action} {s : State}
    (htrace : MinimaRespected min s.trace) (has : AsksForMinima min as) :
    MinimaRespected min (runActions as s).trace := by
  intro k d h
  obtain hold | hentry := mem_delaysOf_runActions h
  · exact htrace k d hold
  · exact has k d hentry

section Entries
variable {min : DelayKind → Nat}

theorem asksForMinima_nil : AsksForMinima min [] := fun _ _ h => absurd h List.not_mem_nil

@[simp] theorem asksForMinima_append {as bs : List Action} :
    AsksForMinima min (as ++ bs) ↔ AsksForMinima min as ∧ AsksForMinima min bs := by
  simp only [AsksForMinima, List.mem_append, or_imp, forall_and]

@[simp] theorem asksForMinima_delay {k : DelayKind} {d : Nat} : AsksForMinima min [.delay k d] ↔ min k ≤ d := by
  simp [AsksForMinima]

/-- An entry check, or a write of one field, asks for no delay. -/
theorem asksForMinima_cons_noEvent {a : Action} {as : List Action} (ha : a.isEvent = false) (has : AsksForMinima min as) :
    AsksForMinima min (a :: as) := by
  intro k d h
  obtain rfl | hmem := List.mem_cons.1 h
  · cases ha
  · exact has k d hmem

/-- A send has no delay (R124). -/
theorem asksForMinima_present (c : Config) (cb : Byte) : AsksForMinima min (presentActions c cb) := by
  simp [AsksForMinima, presentActions, sendActions, transmitActions, latchActions, cellActions]

variable {c : Config} (hcover : DurationsCover min c)
include hcover

theorem asksForMinima_nibble (n : Nibble) (rs : Level) : AsksForMinima min (nibbleActions c n rs) := by
  obtain ⟨-, -, -, -, -, hnibble, -⟩ := hcover
  simp [nibbleActions, asksForMinima_present, hnibble]

theorem execDelay_covers (rs : Level) (v : Byte) : min .exec ≤ execDelay c rs v := by
  obtain ⟨-, -, -, -, -, -, hshort, hlong, hdata⟩ := hcover
  rw [execDelay_eq]
  split
  · exact hdata
  · split
    · exact hlong
    · exact hshort

theorem asksForMinima_byte (v : Byte) (rs : Level) : AsksForMinima min (byteActions c v rs) := by
  simp [byteActions, asksForMinima_nibble hcover, execDelay_covers hcover]

theorem asksForMinima_codes (codes : List Byte) :
    AsksForMinima min (codes.flatMap fun v => .checkReady :: byteActions c v true) := by
  induction codes with
  | nil => exact asksForMinima_nil
  | cons v vs ih =>
    rw [List.flatMap_cons, asksForMinima_append]
    exact ⟨asksForMinima_cons_noEvent rfl (asksForMinima_byte hcover v true), ih⟩

theorem asksForMinima_init : AsksForMinima min (initActions c) := by
  have hnibble (n : Nibble) := asksForMinima_nibble hcover n false
  have hbyte (v : Byte) := asksForMinima_byte hcover v false
  have hready : AsksForMinima min [.writeDState .ready] := asksForMinima_cons_noEvent rfl asksForMinima_nil
  obtain ⟨hpowerOn, hreset1, hreset2, hreset3, hfourBit, -⟩ := hcover
  have hhead : AsksForMinima min [.checkUninitialized, .writeDState .initializing, .delay .powerOn c.tPowerOn] :=
    asksForMinima_cons_noEvent rfl (asksForMinima_cons_noEvent rfl (asksForMinima_delay.2 hpowerOn))
  simp only [initActions, asksForMinima_append, asksForMinima_delay, hhead, hnibble, hbyte, hready, hreset1, hreset2, hreset3,
    hfourBit, and_self]

/-- The delays of the upstream calls (R95, R221) are durations of the configuration; only the internal `delay` takes its time from
its operand (R200). -/
theorem asksForMinima_expansion {i : Instr} (hup : i.isUpstream = true) : AsksForMinima min (expansion c i) := by
  cases i with
  | initialise => exact asksForMinima_init hcover
  | writeCommand v => exact asksForMinima_cons_noEvent rfl (asksForMinima_byte hcover v false)
  | writeData v => exact asksForMinima_cons_noEvent rfl (asksForMinima_byte hcover v true)
  | writeString codes => exact asksForMinima_cons_noEvent rfl (asksForMinima_codes hcover codes)
  | _ => cases hup

end Entries

/-- Settles O39: the step runs the expansion of an upstream call, since the caller is the host, and it adds only delays that the
durations cover. -/
theorem upstreamStepsRespectMinima : Obligations.UpstreamStepsRespectMinima := by
  intro min s t hinv hcover hmin h
  obtain ⟨-, -, ⟨op, i, hbusy, -⟩ | ⟨-, -, rfl⟩ | ⟨-, call, rest, op, hcalls, -, hmay, hexec⟩⟩ := step_next h
  · exact absurd (hinv.idle.symm.trans hbusy) (by simp)
  · exact hmin
  · have hhost : call.caller = .host := hinv.host call (hcalls ▸ List.mem_cons_self)
    rw [hhost, mayCall_host] at hmay
    obtain ⟨-, rfl⟩ := exec_next_runActions hexec
    exact MinimaRespected.runActions hmin (asksForMinima_expansion hcover hmay)

end Sys2Proof.Machine
end

section
/-! PROOFS. The step outside a call's operation (60_exceptions.md R214 to R217, R221), the host's liberties (R221), and the fault
reasons (R210). -/

namespace Sys2Proof.Machine

/-! The configuration check (R217) comes first. -/

theorem Config.defect_of_not_permutation {c : Config} (h : ¬ c.wiring.IsPermutation) :
    c.defect = some .wiringNotPermutation := by
  rw [Config.defect, if_neg (mt (isPermutation_iff _).1 h)]

theorem Config.defect_of_not_fourBit {c : Config} (hw : c.wiring.IsPermutation)
    (h : ¬ IsFourBitFunctionSet c.initFunctionSet) : c.defect = some .functionSetNotFourBit := by
  rw [Config.defect, if_pos ((isPermutation_iff _).2 hw), if_neg h]

theorem step_of_defect {s : State} {d : ConfigDefect} (h : s.cfg.defect = some d) :
    step s = .refused (.illegalConfiguration d) := by
  simp only [step, h]

section Legal
variable {s : State} (hlegal : s.cfg.Legal)
include hlegal

theorem step_of_fault {r : FaultReason} (h : s.fault = some r) : step s = .fault (.stuckAfterFault r) := by
  simp only [step, (Config.defect_eq_none_iff _).2 hlegal, h]

theorem step_of_busy {op : Instr} {i : Nat} (hf : s.fault = none) (hbusy : s.seq = .busy op i) :
    step s = .next (sequencerTick s) := by
  simp only [step, (Config.defect_eq_none_iff _).2 hlegal, hf, hbusy]

theorem step_of_noCall (hstart : CanStart s) (hcalls : s.calls = []) : step s = .next s := by
  simp only [step, (Config.defect_eq_none_iff _).2 hlegal, hstart.1, hstart.2, hcalls]

theorem step_of_undecodable {call : Call} {rest : List Call} {e : DecodeError} (hstart : CanStart s)
    (hcalls : s.calls = call :: rest) (hdecode : decode call.record = .error e) : step s = .refused (.undecodable e) := by
  simp only [step, (Config.defect_eq_none_iff _).2 hlegal, hstart.1, hstart.2, hcalls, hdecode]

end Legal

/-- Settles O7: one lemma for each case of the step, in their order. -/
theorem stepOutsideACall : Obligations.StepOutsideACall := by
  refine ⟨fun s hw => ?_, fun s hw hset => ?_, fun s r hlegal hf => ?_, fun s op i hlegal hf hbusy => ?_,
    fun s hlegal hstart hcalls => ?_, fun s call rest e hlegal hstart hcalls hdecode => ?_,
    fun s call rest i hlegal hstart hcalls hdecode hmay => ?_⟩
  · exact step_of_defect (Config.defect_of_not_permutation hw)
  · exact step_of_defect (Config.defect_of_not_fourBit hw hset)
  · exact step_of_fault hlegal hf
  · exact step_of_busy hlegal hf hbusy
  · exact step_of_noCall hlegal hstart hcalls
  · exact step_of_undecodable hlegal hstart hcalls hdecode
  · rw [step_of_decoded hlegal hstart hcalls hdecode, hmay, if_neg Bool.false_ne_true]

/-! The host's liberties (R221). -/

theorem isUpstream_iff (i : Instr) :
    i.isUpstream = true ↔
      i = .initialise ∨ (∃ v, i = .writeCommand v) ∨ (∃ v, i = .writeData v) ∨ ∃ codes, i = .writeString codes := by
  constructor
  · intro h
    cases i with
    | initialise => exact .inl rfl
    | writeCommand v => exact .inr (.inl ⟨v, rfl⟩)
    | writeData v => exact .inr (.inr (.inl ⟨v, rfl⟩))
    | writeString codes => exact .inr (.inr (.inr ⟨codes, rfl⟩))
    | _ => cases h
  · rintro (rfl | ⟨v, rfl⟩ | ⟨v, rfl⟩ | ⟨codes, rfl⟩) <;> rfl

/-- Between operations, a step with a next state has run a call that its caller may make. -/
theorem mayCall_of_step_next {s t : State} {call : Call} {rest : List Call} {i : Instr} (hidle : s.seq = .idle)
    (hcalls : s.calls = call :: rest) (hdecode : decode call.record = .ok i) (h : step s = .next t) :
    mayCall call.caller i = true := by
  obtain ⟨hlegal, hf, -⟩ := step_next h
  rw [step_of_decoded hlegal ⟨hf, hidle⟩ hcalls hdecode] at h
  by_contra hmay
  rw [if_neg hmay] at h
  cases h

/-- Settles O53: what the host may call is `isUpstream`, and a step has checked it. -/
theorem hostMayCallUpstreamOnly : Obligations.HostMayCallUpstreamOnly := by
  refine ⟨isUpstream_iff, mayCall_inside, fun s call rest i t hidle hcalls hhost hdecode h => (isUpstream_iff i).1 ?_⟩
  rw [← mayCall_host, ← hhost]
  exact mayCall_of_step_next hidle hcalls hdecode h

/-! Faults (R210, R214). -/

theorem exec_of_fault {s : State} {r : FaultReason} (i : Instr) (h : s.fault = some r) :
    exec i s = .fault (.stuckAfterFault r) := by
  rw [exec_eq_runOperation, runOperation_of_fault _ h]

/-- Settles O40: every operation stands in the frame of `runOperation`, which looks at `FAULT` first, as a step does. -/
theorem faultEntryIsSticky : Obligations.FaultEntryIsSticky :=
  ⟨fun _ _ => rfl, fun _ _ i hf => exec_of_fault i hf, fun _ _ hlegal hf => step_of_fault hlegal hf⟩

theorem faultCode_injective : Function.Injective faultCode := by
  intro r r'
  cases r <;> cases r' <;> decide

/-- Each entry check raises its reason: a write and a latch right after reset, an `initialize()` in `Ready`, and a transmit over a
waiting byte. -/
theorem exists_exec_raises (r : FaultReason) : ∃ i s t, exec i s = .next t ∧ s.fault = none ∧ t.fault = some r := by
  cases r with
  | notReady =>
    exact ⟨.writeCommand 0x01#8, .reset, _, writeCommandEffect.2 _ _ ⟨rfl, rfl⟩ (by decide), rfl, rfl⟩
  | reinit =>
    exact ⟨.initialise, { State.reset with dstate := .ready }, _, initializeEffect.2 _ ⟨rfl, rfl⟩ (by decide), rfl, rfl⟩
  | partialLatch => exact ⟨.latch, .reset, _, latchEffect.2 _ ⟨rfl, rfl⟩ (by decide), rfl, rfl⟩
  | unlatchedTransmit =>
    exact ⟨.transmit 0x54#8, { State.reset with linkcnt := 8 }, _, transmitEffect.2 _ _ ⟨rfl, rfl⟩ rfl, rfl, rfl⟩

/-- Settles O41: the codes are the rule's, and each reason comes from its own entry check. -/
theorem faultReasonsAndCodes : Obligations.FaultReasonsAndCodes :=
  ⟨rfl, rfl, rfl, rfl, fun _ _ h => faultCode_injective h, exists_exec_raises⟩

end Sys2Proof.Machine
end

section
/-! PROOFS. The invariant of a host that is the only caller (60_exceptions.md R213, R221): the upstream calls reach the link by
`present` alone (40_serial_link.md R125), so no byte waits when a transmit starts or a call ends, and the device sees RW = 0
(30_encoding.md R98). -/

namespace Sys2Proof.Machine

/-- No strobe of the events is a read (R67). -/
def WritesOnly (es : List Event) : Prop := ∀ x ∈ strobesOf es, x.2.1 = false

@[simp] theorem writesOnly_append {es fs : List Event} : WritesOnly (es ++ fs) ↔ WritesOnly es ∧ WritesOnly fs := by
  simp only [WritesOnly, strobesOf_append, List.forall_mem_append]

theorem writesOnly_of_noStrobe {es : List Event} (h : strobesOf es = []) : WritesOnly es :=
  fun _ hx => absurd (h ▸ hx) List.not_mem_nil

/-- The frame of a ControlByte that `CB` builds causes no read, whatever the outputs held (R62, R98). -/
theorem writesOnly_strobeEvents {w : Wiring} (h : w.IsPermutation) (old : Byte) (n : Nibble) (rs en : Level) :
    WritesOnly (strobeEvents w old (remapFrame w (controlByte n rs en))) := by
  obtain ⟨-, -, hrw, -⟩ := controlByte_on_lines h n rs en
  unfold strobeEvents
  split
  · intro x hx
    obtain rfl := List.mem_singleton.1 hx
    exact hrw
  · exact writesOnly_of_noStrobe rfl

/-- What the upstream calls keep between their sends: the link is ready for the next one, and so far no read has reached the device
and no fault came from the link. -/
structure LinkAtRest (s : State) : Prop where
  permutation : s.cfg.wiring.IsPermutation
  sent : s.linkcnt = 0
  clkLow : s.line.clk = false
  noLinkFault : s.fault ≠ some .partialLatch ∧ s.fault ≠ some .unlatchedTransmit
  writesOnly : WritesOnly s.trace

namespace LinkAtRest

theorem of_upstreamInv {s : State} (h : UpstreamInv s) : LinkAtRest s :=
  { permutation := h.legal.1, sent := h.sent, clkLow := h.clkLow, noLinkFault := h.noLinkFault, writesOnly := h.writesOnly }

theorem linkOpen {s : State} (h : LinkAtRest s) : LinkOpen s := by
  have hsent : s.linkcnt ≠ 8 := by simp [h.sent]
  exact ⟨hsent, h.clkLow⟩

/-- A send with a ControlByte of `CB` meets no waiting byte, latches its own, and writes to the device if anything. -/
theorem keeps_present (n : Nibble) (rs en : Level) : Keeps LinkAtRest (present (controlByte n rs en)) := by
  intro s hs h
  have hline : WritesOnly (lineWrites (remapFrame s.cfg.wiring (controlByte n rs en))) :=
    writesOnly_of_noStrobe (strobesOf_lineWrites _)
  have hstrobe := writesOnly_strobeEvents h.permutation s.out n rs en
  rw [present, send_eq _ (by exact hs) (by exact h.linkOpen)]
  exact { permutation := h.permutation, sent := rfl, clkLow := rfl, noLinkFault := h.noLinkFault
          writesOnly := by simpa using ⟨h.writesOnly, hline, hstrobe⟩ }

theorem keeps_delayFor (k : DelayKind) (t : Nat) : Keeps LinkAtRest (delayFor k t) :=
  fun _ _ h => { h with writesOnly := writesOnly_append.2 ⟨h.writesOnly, writesOnly_of_noStrobe rfl⟩ }

theorem keeps_writeDState (d : DState) : Keeps LinkAtRest fun s => { s with dstate := d } := fun _ _ h => { h with }

/-- The faults of the upstream calls' own checks are none of the link's (R211, R212). -/
theorem keeps_raise {r : FaultReason} (hpartial : r ≠ .partialLatch) (hunlatched : r ≠ .unlatchedTransmit) :
    Keeps LinkAtRest (raise r) :=
  fun _ _ h => { h with
    noLinkFault := by simp [hpartial, hunlatched]
    writesOnly := writesOnly_append.2 ⟨h.writesOnly, writesOnly_of_noStrobe rfl⟩ }

/-- Every upstream call keeps it (R95, R221): past its check of `DSTATE` it is made of `present` and delays. -/
theorem keeps_bodyOf {i : Instr} (hup : i.isUpstream = true) : Keeps LinkAtRest (bodyOf i) := by
  have hbyte (v : Byte) (rs : Level) : Keeps LinkAtRest (writeByte v rs) :=
    keeps_writeByte keeps_present keeps_delayFor v rs
  have hnotReady : Keeps LinkAtRest (raise .notReady) := keeps_raise (by decide) (by decide)
  have hreinit : Keeps LinkAtRest (raise .reinit) := keeps_raise (by decide) (by decide)
  cases i with
  | initialise => exact (keeps_initSequence keeps_present keeps_delayFor keeps_writeDState).requireUninitialized hreinit
  | writeCommand v => exact (hbyte v false).requireReady hnotReady
  | writeData v => exact (hbyte v true).requireReady hnotReady
  | writeString codes => exact (keeps_writeCodes keeps_present keeps_delayFor hnotReady codes).requireReady hnotReady
  | _ => cases hup

end LinkAtRest

theorem UpstreamInv.of_linkAtRest {s : State} (hblock : BlockInv s) (hhost : UpstreamHost s.calls) (h : LinkAtRest s) :
    UpstreamInv s :=
  { hblock with host := hhost, sent := h.sent, noLinkFault := h.noLinkFault, writesOnly := h.writesOnly }

/-- Settles O46: a step between operations changes nothing or runs an upstream call, since its caller is the host; the call keeps
the link at rest and leaves the other calls. -/
theorem stepKeepsUpstreamInv : Obligations.StepKeepsUpstreamInv := by
  intro s t hs h
  have hblock : BlockInv t := stepKeepsBlockInv s t hs.toBlockInv h
  obtain ⟨-, -, ⟨op, i, hbusy, -⟩ | ⟨-, -, rfl⟩ | ⟨-, call, rest, op, hcalls, -, hmay, hexec⟩⟩ := step_next h
  · exact absurd (hs.idle.symm.trans hbusy) (by simp)
  · exact hs
  · obtain ⟨hcall, hrest⟩ : call.caller = .host ∧ UpstreamHost rest := List.forall_mem_cons.1 (hcalls ▸ hs.host)
    rw [hcall, mayCall_host] at hmay
    have hleft : UpstreamHost t.calls := by rwa [(configurationIsFixed.1 _ _ _ hexec).2]
    obtain ⟨⟨hf, -⟩, rfl⟩ := exec_next hexec
    exact .of_linkAtRest hblock hleft (LinkAtRest.keeps_bodyOf hmay hf { LinkAtRest.of_upstreamInv hs with })

end Sys2Proof.Machine
end

section
/-! PROOFS. Block reset and the power-on draws (70_reset_and_hazards.md R240, R247): the state after reset, the invariants in it,
and `initialize()` from every draw of `STAGE`, `OUT` and the device's mode. -/

namespace Sys2Proof.Machine

/-- Settles O43: the table of R240, row by row. -/
theorem blockResetValues : Obligations.BlockResetValues := fun c stage out mode =>
  ⟨blockReset_dstate c stage out mode, blockReset_acc c stage out mode, blockReset_line c stage out mode,
    blockReset_stage c stage out mode, blockReset_out c stage out mode, blockReset_linkcnt c stage out mode,
    blockReset_fault c stage out mode, blockReset_seq c stage out mode, blockReset_trace c stage out mode,
    congrArg Device.mode (blockReset_device c stage out mode)⟩

section Reset
variable {c : Config} (hlegal : c.Legal) (stage out : Byte) (mode : DeviceMode)
include hlegal

/-- No byte waits, no line is up and the trace is empty, so `STAGE` and `OUT` may differ (R24, R25). -/
theorem blockReset_blockInv (calls : List Call) : BlockInv { State.blockReset c stage out mode with calls := calls } :=
  { legal := hlegal
    idle := blockReset_seq c stage out mode
    whole := .inl (blockReset_linkcnt c stage out mode)
    clkLow := congrArg Lines.clk (blockReset_line c stage out mode)
    accLegal := (by decide : IsLegalControlByte 0x00#8)
    settled := fun _ => by simp
    recorded := rfl
    latched := fun _ hlatch => absurd hlatch (by simp) }

theorem blockReset_upstreamInv {calls : List Call} (hhost : UpstreamHost calls) :
    UpstreamInv { State.blockReset c stage out mode with calls := calls } :=
  { blockReset_blockInv hlegal stage out mode calls with
    host := hhost
    sent := blockReset_linkcnt c stage out mode
    noLinkFault := by simp
    writesOnly := fun _ hstrobe => absurd hstrobe List.not_mem_nil }

end Reset

/-- Settles O44: `State.reset` is the block reset of a legal configuration. -/
theorem invariantsHoldAtReset : Obligations.InvariantsHoldAtReset :=
  ⟨fun _ stage out mode calls hlegal => blockReset_blockInv hlegal stage out mode calls,
    fun _ stage out mode _ hlegal hhost => blockReset_upstreamInv hlegal stage out mode hhost,
    blockReset_blockInv (by decide : Config.informative.Legal) 0x00#8 0x00#8 .eight []⟩

/-! The device's mode through the sequence (R67, R68). -/

/-- The strobes of commands (RS = 0), each byte as its high and its low nibble (R151). -/
def commandStrobes (vs : List Byte) : List (Level × Level × Nibble) :=
  vs.flatMap fun v => [(false, false, highNibble v), (false, false, lowNibble v)]

/-- The sequence strobes the four nibbles of R182 and R183 and then four commands (R184 to R187). -/
theorem strobesOf_initEvents_eq_commandStrobes (c : Config) :
    strobesOf (initEvents c) =
      [(false, false, 0x3#4), (false, false, 0x3#4), (false, false, 0x3#4), (false, false, 0x2#4)] ++
        commandStrobes [c.initFunctionSet, Config.initDisplayControl, Config.initEntryMode, Config.initClear] := by
  simp only [initEvents, strobesOf_append, strobesOf_delay, strobesOf_nibbleEvents, strobesOf_byteEvents]
  rfl

/-- The only command that leaves the 4-bit interface is a function set with DL = 1 (R67). -/
theorem modeAfterByte_fourHi {h : Nibble} (hh : h ≠ 0x3#4) : modeAfterByte false h .fourHi = .fourHi := by
  revert h
  decide

/-- A device that awaits a high nibble awaits one again after whole commands, none of them a function set with DL = 1. -/
theorem deviceAfter_commandStrobes_fourHi {vs : List Byte} (h : ∀ v ∈ vs, highNibble v ≠ 0x3#4) {d : Device}
    (hd : d.mode = .fourHi) : (deviceAfter d (commandStrobes vs)).mode = .fourHi := by
  induction vs generalizing d with
  | nil => exact hd
  | cons v vs ih =>
    obtain ⟨hv, hvs⟩ := List.forall_mem_cons.1 h
    have hbyte : (deviceReceive false false (lowNibble v) (deviceReceive false false (highNibble v) d)).mode = .fourHi := by
      rw [deviceReceive_mode, deviceReceive_mode, hd]
      exact modeAfterByte_fourHi hv
    exact ih hvs hbyte

/-- The three 0x3 and the 0x2 leave `FourHi` from every mode (R68), and the four commands keep it. -/
theorem deviceAfter_initEvents_fourHi {c : Config} (hset : IsFourBitFunctionSet c.initFunctionSet) (d : Device) :
    (deviceAfter d (strobesOf (initEvents c))).mode = .fourHi := by
  have hcommands : ∀ v ∈ [c.initFunctionSet, Config.initDisplayControl, Config.initEntryMode, Config.initClear],
      highNibble v ≠ 0x3#4 := by
    refine List.forall_mem_cons.2 ⟨?_, by decide⟩
    rw [highNibble_functionSet hset]
    decide
  rw [strobesOf_initEvents_eq_commandStrobes, deviceAfter_append]
  exact deviceAfter_commandStrobes_fourHi hcommands (threeResetStrobesResynchronise d).2

/-- Settles O35: block reset meets what `initializeEffect` asks for, and none of it is about `STAGE`, `OUT` or the device. -/
theorem initializeIndependentOfPowerOn : Obligations.InitializeIndependentOfPowerOn := by
  intro c stage out mode hlegal
  have hopen : LinkOpen (State.blockReset c stage out mode) := ⟨by simp, rfl⟩
  have hmode := deviceAfter_initEvents_fourHi hlegal.2 (State.blockReset c stage out mode).device
  exact ⟨_, initializeEffect.1 (State.blockReset c stage out mode) hlegal ⟨rfl, rfl⟩ hopen rfl, by simp, rfl, hmode⟩

end Sys2Proof.Machine
end
